-- ==== Sys2Proof/Word.lean ====
section
/-! DEFINITION. The word types of the block (spec 00_scope.md rule R10). -/

namespace Sys2Proof

/-- `u8` (R10). -/
abbrev Byte := BitVec 8

/-- `u64`, a device address: an opaque bit pattern (R20). -/
abbrev Addr := BitVec 64

/-- `s16` (R10): sixteen bits, read as a number by `BitVec.toInt`. -/
abbrev S16 := BitVec 16

/-- An offset into the 64-byte register window, 0x00..0x3F (R41). -/
abbrev WinOff := BitVec 6

end Sys2Proof
end

