-- ==== Sys2Proof/Syntax.lean ====
section
/-! DEFINITION. The commands (spec 30_encoding.md R60), what the host can do to the block (20_memory.md R41, R43,
R135, R142) and the host-script language (30_encoding.md R69 to R72). -/

namespace Sys2Proof

/-- The eight commands, one constructor per row of the opcode map (R60). No command carries an operand in its
encoding (R61): each reads operand registers. -/
inductive Instr where
  | nop
  | spread
  | spwrite
  | spstore
  | sprecall
  | tdecode
  | almenc
  | almdec
deriving DecidableEq, Repr

/-- The operand registers, written only by the host (R18). -/
inductive OperandReg where
  | addr
  | argHi
  | argLo
  | argD
  | argB
deriving DecidableEq, Repr

/-- One thing the host or the platform does to the block, between commands (R41, R43, R135, R142). -/
inductive HostEvent where
  /-- `MemRead(off, 1)` (R41). -/
  | read (off : WinOff)
  /-- `MemWrite(off, 1, v)` (R41); at offset 0x00 it starts a command (R24). -/
  | write (off : WinOff) (v : Byte)
  /-- A window access of more than one byte (R43): it has no step (R129). -/
  | wide (off : WinOff) (bytes : Nat)
  /-- A window access attempted while a command is in progress (R142): it has no step (R129). -/
  | overlapping (off : WinOff)
  /-- The platform's reset, which is the source's `Init()` (R135). -/
  | reset
deriving DecidableEq, Repr

/-- The registers a host script names (R17, R41, R69). -/
inductive WinReg where
  | cmd
  | status
  | argHi
  | argLo
  | argD
  | argB
  | resByte
  | resDeg
  | temp
  | crcCalc
  | addr
  | sp (i : Fin 9)
deriving DecidableEq, Repr

/-- A line of a host script (R69); numbers are integers (R72). -/
inductive ScriptLine where
  | wr (r : WinReg) (v : Int)
  | rd (r : WinReg)
  | command (i : Instr)
deriving DecidableEq, Repr

/-- The pseudo-instructions (R70). -/
inductive Pseudo where
  | spread (a : Int)
  | spwrite (a h l : Int)
  | spstore (a : Int)
  | sprecall (a : Int)
  | almenc (d : Int)
  | almdec (b : Int)
  | readtemp (a : Int)
deriving DecidableEq, Repr

end Sys2Proof
end

