-- ==== Sys2Proof/WellFormed.lean ====
section
/-! DEFINITION. Which syntax is well formed. A command has no operand field (R58, R61), so every `Instr` is a command
of the opcode map and needs no check; what can be ill formed is a host event (R43) or a line of a host script (R69 to
R72), whose number must fit the register it is written to. -/

namespace Sys2Proof

/-- A `wide` event is an access of more than one byte (R43); every other event is well formed by its type. -/
def HostEvent.wellFormed : HostEvent → Bool
  | .wide _ bytes => decide (2 ≤ bytes)
  | _ => true

/-- How many bytes of the window a register takes (R41). -/
def WinReg.byteCount : WinReg → Nat
  | .addr => 8
  | .argD | .resDeg | .temp => 2
  | _ => 1

/-- Is the register two's complement (R17: the three `s16` registers)? -/
def WinReg.signed : WinReg → Bool
  | .argD | .resDeg | .temp => true
  | _ => false

/-- The number fits the register: `u8` and `u64` are unsigned, `s16` is two's complement (R10, R72). -/
def WinReg.fits (r : WinReg) (v : Int) : Bool :=
  if r.signed then decide (-32768 ≤ v ∧ v ≤ 32767) else decide (0 ≤ v ∧ v < 2 ^ (8 * r.byteCount))

/-- A script line is well formed when the number it writes fits its register (R69, R72). -/
def ScriptLine.wellFormed : ScriptLine → Bool
  | .wr r v => r.fits v
  | .rd _ => true
  | .command _ => true

/-- A pseudo-instruction is well formed when each argument fits the register it is written to (R70). -/
def Pseudo.wellFormed : Pseudo → Bool
  | .spread a | .spstore a | .sprecall a | .readtemp a => WinReg.addr.fits a
  | .spwrite a h l => WinReg.addr.fits a && WinReg.argHi.fits h && WinReg.argLo.fits l
  | .almenc d => WinReg.argD.fits d
  | .almdec b => WinReg.argB.fits b

end Sys2Proof
end

