-- ==== Sys2Proof/Decode.lean ====
section
/-! DEFINITION. The format CMD8: decoding and encoding the command byte (spec 30_encoding.md R58 to R68). -/

namespace Sys2Proof

/-- Why a `CMD` value is no command. Both reasons raise `IllegalCommand` when the value is written (R64, R65). -/
inductive DecodeReject where
  /-- `CMD[7:4]` is not 0 (R65). -/
  | reservedBits
  /-- `CMD[3:0]` is 0x8..0xF (R64). -/
  | reservedOp
deriving DecidableEq, Repr

/-- Field `OP` = `CMD[3:0]` (R59). -/
def opField (c : Byte) : BitVec 4 := c.extractLsb' 0 4

/-- Field `RSV` = `CMD[7:4]` (R59). -/
def rsvField (c : Byte) : BitVec 4 := c.extractLsb' 4 4

/-- The operation of each `OP` value (R59, R60). -/
def decodeOp (op : BitVec 4) : Except DecodeReject Instr :=
  match op.toNat with
  | 0x0 => .ok .nop
  | 0x1 => .ok .spread
  | 0x2 => .ok .spwrite
  | 0x3 => .ok .spstore
  | 0x4 => .ok .sprecall
  | 0x5 => .ok .tdecode
  | 0x6 => .ok .almenc
  | 0x7 => .ok .almdec
  | _ => .error .reservedOp

/-- Decoding of a `CMD` byte: total on all 256 values (R59, R68). -/
def decode (c : Byte) : Except DecodeReject Instr :=
  if rsvField c ≠ 0 then .error .reservedBits else decodeOp (opField c)

/-- The `OP` value of each command (R60). -/
def opcode : Instr → BitVec 4
  | .nop => 0x0
  | .spread => 0x1
  | .spwrite => 0x2
  | .spstore => 0x3
  | .sprecall => 0x4
  | .tdecode => 0x5
  | .almenc => 0x6
  | .almdec => 0x7

/-- The `CMD` byte of a command: `RSV` = 0 above `OP` (R59, R60). -/
def encode (i : Instr) : Byte := (0 : BitVec 4) ++ opcode i

/-- The decoder on a word numbered as the opcode table numbers it: every row is one byte (R58). -/
def decodeTableWord (nbits w : Nat) : Option Instr :=
  if nbits = 8 ∧ w < 256 then (decode (BitVec.ofNat 8 w)).toOption else none

end Sys2Proof
end

