-- ==== Sys2Proof/Config.lean ====
section
/-! DEFINITION. The implementation parameters (spec 00_scope.md R9) and the free values: what the spec leaves open.
Each open one is an opaque constant with no body, so nothing can be proved about its value. -/

namespace Sys2Proof

/-- The open parameters the commands use (R9), bundled so that a meaning can also be run under the test vectors'
defaults (95_test_vectors.md). -/
structure Params where
  /-- `CRC8_STEP` (R9, D7). -/
  crc8Step : Byte → Byte → Byte
  /-- `CRC_INIT` (R9, D8). -/
  crcInit : Byte
  /-- `OP_READ_SP` (R9, D9). -/
  opReadSp : Byte
  /-- `OP_WRITE_SP` (R9, D9). -/
  opWriteSp : Byte
  /-- `OP_COPY_SP` (R9, D9). -/
  opCopySp : Byte
  /-- `OP_RECALL_EE` (R9, D9). -/
  opRecallEe : Byte

/-- `CRC8_STEP`: OPEN (R9, D7; log entry 1). -/
opaque Config.crc8Step : Byte → Byte → Byte

/-- `CRC_INIT`: OPEN (R9, D8; log entry 1). -/
opaque Config.crcInit : Byte

/-- `OP_READ_SP`: OPEN (R9, D9; log entry 1). -/
opaque Config.opReadSp : Byte

/-- `OP_WRITE_SP`: OPEN (R9, D9; log entry 1). -/
opaque Config.opWriteSp : Byte

/-- `OP_COPY_SP`: OPEN (R9, D9; log entry 1). -/
opaque Config.opCopySp : Byte

/-- `OP_RECALL_EE`: OPEN (R9, D9; log entry 1). -/
opaque Config.opRecallEe : Byte

/-- This hardware's parameters: all open. -/
def Config.params : Params where
  crc8Step := Config.crc8Step
  crcInit := Config.crcInit
  opReadSp := Config.opReadSp
  opWriteSp := Config.opWriteSp
  opCopySp := Config.opCopySp
  opRecallEe := Config.opRecallEe

/-- `WINDOW_BASE`: OPEN (R9, R42, D34; log entry 1). -/
opaque Config.windowBase : Nat

/-- `BROADCAST_ADDR` = 0 (R9, R20): an address like any other to the block; the bus driver gives it its meaning. -/
def Config.broadcastAddr : Addr := 0

/-- `TEMP_SENTINEL` = -32768 (R9, D14; log entry 2). -/
def Config.tempSentinel : S16 := 0x8000#16

/-- The bus driver's answer to the selection that takes draw `n`: a free oracle draw (R7, R55; log entry 3). `true`
stands for `Found`. -/
opaque Config.freeSelect : Nat → Bool

/-- The byte the bus driver returns to the read that takes draw `n`: a free oracle draw (R7, R55; log entry 3). -/
opaque Config.freeByte : Nat → Byte

/-- What a host read of an unspecified window byte returns when `n` reads have been answered before it: any value (R39,
R41; log entry 4). -/
opaque Config.freeRead : Nat → WinOff → Byte

/-- What byte `k` of an operand register gives a command that reads it before the host has written it, when `n` draws have
been taken: an unspecified value (R38, R128; log entry 8). -/
opaque Config.freeOperand : Nat → OperandReg → Nat → Byte

end Sys2Proof
end

