-- ==== Sys2Proof/Machine/State.lean ====
section
/-! DEFINITION. The state of the block and of the two parties around it, as plain data (spec 10_state.md), the reasons a
step can stop, and the state after reset (R38). INVENTORY.md lists every field with its rule. -/

namespace Sys2Proof.Machine

/-- `BusSelect`'s answers (R53). -/
inductive SelectAnswer where
  | found
  | notFound
deriving DecidableEq, Repr

/-- The pull-up levels (R53). -/
inductive PullLevel where
  | weak
  | strong
deriving DecidableEq, Repr

/-- An entry of the bus event log (R33). -/
inductive BusEvent where
  | sel (a : Addr) (r : SelectAnswer)
  | wr (b : Byte)
  | rd (b : Byte)
  | pu (level : PullLevel)
deriving DecidableEq, Repr

/-- The outcomes `ERR` can hold (R26, R117). Codes 6 and 7 are never written, so they have no constructor (log
entry 13). -/
inductive ErrCode where
  | ok
  | deviceNotFound
  | crcMismatch
  | malformedScratchpad
  | noValidScratchpad
  | illegalCommand
deriving DecidableEq, Repr

/-- Which bytes of each operand register the host has written since reset (R37): model-only flags. -/
structure WrittenFlags where
  argHi : Bool
  argLo : Bool
  argD  : Vector Bool 2
  argB  : Bool
  addr  : Vector Bool 8
deriving DecidableEq, Repr

/-- The operand registers (R20 to R23) with their written flags (R37). -/
structure OperandRegs where
  addr    : Addr
  argHi   : Byte
  argLo   : Byte
  argD    : S16
  argB    : Byte
  written : WrittenFlags
deriving DecidableEq, Repr

/-- The bus driver's coming answers, oldest first: an input of the block (R7, R53). Where a list is empty the answer is
a free oracle draw (R55; log entry 3). -/
structure BusDriver where
  selects : List SelectAnswer
  bytes   : List Byte
deriving DecidableEq, Repr

/-- The host's side of the register window: the events still to come, in the order the host issues them (R50), and the
reads answered so far with their values, oldest first; their number also indexes the any-value reads (log entry 4). -/
structure HostPort where
  queue : List HostEvent
  reads : List (WinOff × Byte)
deriving DecidableEq, Repr

/-- The model fault of R128; it names the command and the register. It is a mark in the state, not a stop. -/
inductive ModelFault where
  | unwrittenOperand (command : Instr) (register : OperandReg)
deriving DecidableEq, Repr

/-- The block (R17), the model-only flags and record the spec gives it (R37, R39, R40), and its environment (R7). -/
@[ext]
structure State where
  /-- `ADDR`, `ARG_HI`, `ARG_LO`, `ARG_D`, `ARG_B` and their written flags. -/
  operands    : OperandRegs
  /-- `STATUS[2:0]` (R26). -/
  err         : ErrCode
  /-- `STATUS[3]` (R27). -/
  spValid     : Bool
  /-- `STATUS[4]` (R28). -/
  tempValid   : Bool
  /-- `STATUS[5]` (R29). -/
  strongPuReq : Bool
  /-- `SP[0..8]` (R30). -/
  sp          : Vector Byte 9
  /-- `CRC_CALC` (R31). -/
  crcCalc     : Byte
  /-- Has a command written `CRC_CALC` since reset (R39)? -/
  crcCalcSet  : Bool
  /-- `TEMP` (R32). -/
  temp        : S16
  /-- `RES_BYTE` (R34). -/
  resByte     : Byte
  /-- Has a command written `RES_BYTE` since reset (R39)? -/
  resByteSet  : Bool
  /-- `RES_DEG` (R35). -/
  resDeg      : S16
  /-- Has a command written `RES_DEG` since reset (R39)? -/
  resDegSet   : Bool
  /-- The bus event log, oldest entry first (R33). -/
  busLog      : List BusEvent
  /-- The sticky fault record (R40). -/
  faultRec    : Option ModelFault
  /-- The bus driver (R7), not hardware state of the block. -/
  driver      : BusDriver
  /-- The host (R7), not hardware state of the block. -/
  host        : HostPort
  /-- The model's own counter of the bus driver's draws taken so far (log entry 3). -/
  fresh       : Nat
deriving DecidableEq, Repr

/-- Why the machine stops with a fault: nothing makes it stop, so the type has no constructor. An error is a value in
`ERR` (R116), and the model fault of R128 is recorded in the state while the command runs (log entry 8). Safe: no step of
the machine is left out. -/
inductive Fault where
deriving DecidableEq, Repr

/-- Why a host event has no step. -/
inductive Refusal where
  /-- Raised by an arm of `exec` whose instruction has no meaning yet; no arm does. Safe. -/
  | notModelled (mnemonic : String)
  /-- Raised by a window access wider than one byte (R43, R129; log entry 11). Safe: the run is stuck. -/
  | wideAccess
  /-- Raised by a window access attempted while a command is in progress (R129, R142; log entry 11). Safe: the run is
  stuck. -/
  | overlappingAccess
deriving DecidableEq, Repr

/-- No operand byte has been written (R38). -/
def WrittenFlags.none : WrittenFlags where
  argHi := false
  argLo := false
  argD := Vector.replicate 2 false
  argB := false
  addr := Vector.replicate 8 false

/-- The state after reset (R38, R136). The spec leaves the operand registers, `SP`, `CRC_CALC`, `RES_BYTE` and
`RES_DEG` unspecified: they hold zero here (DESIGN CHOICE, log entry 5), and no command and no host read sees it. -/
def State.reset : State where
  operands := { addr := 0, argHi := 0, argLo := 0, argD := 0, argB := 0, written := .none }
  err := .ok
  spValid := false
  tempValid := false
  strongPuReq := false
  sp := Vector.replicate 9 0
  crcCalc := 0
  crcCalcSet := false
  temp := Config.tempSentinel
  resByte := 0
  resByteSet := false
  resDeg := 0
  resDegSet := false
  busLog := []
  faultRec := Option.none
  driver := { selects := [], bytes := [] }
  host := { queue := [], reads := [] }
  fresh := 0

end Sys2Proof.Machine
end

