-- ==== Sys2Proof/Machine/Flags.lean ====
section
/-! DEFINITION. The status register: the codes of `ERR` and how `STATUS` is put together (spec 10_state.md R25 to R29,
60_exceptions.md R117). The spec computes no arithmetic flag. -/

namespace Sys2Proof.Machine

/-- The code of each outcome (R26, R117). -/
def ErrCode.code : ErrCode → BitVec 3
  | .ok => 0
  | .deviceNotFound => 1
  | .crcMismatch => 2
  | .malformedScratchpad => 3
  | .noValidScratchpad => 4
  | .illegalCommand => 5

/-- `STATUS` as the host reads it: bits [7:6] hardwired 0, `STRONG_PU_REQ`, `TEMP_VALID`, `SP_VALID`, `ERR` (R25). -/
def State.status (s : State) : Byte :=
  (0 : BitVec 2) ++ BitVec.ofBool s.strongPuReq ++ BitVec.ofBool s.tempValid ++ BitVec.ofBool s.spValid ++ s.err.code

end Sys2Proof.Machine
end

