-- ==== Sys2Proof/Machine/Ops.lean ====
section
/-! DEFINITION. The shared operations: byte lanes of a register (R44), reporting an outcome (R12, R116), the fault
record (R40, R128), the bus requests (R53), the prologue (R73) and selecting the device (R118). -/

namespace Sys2Proof.Machine

/-- Byte `k` of a register: bits [8k+7:8k] (R44). -/
def byteOf {w : Nat} (v : BitVec w) (k : Nat) : Byte := v.extractLsb' (8 * k) 8

/-- The register with byte `k` replaced (R44, R46). -/
def putByte {w : Nat} (v : BitVec w) (k : Nat) (b : Byte) : BitVec w :=
  (v &&& ~~~((0xFF#8).setWidth w <<< (8 * k))) ||| (b.setWidth w <<< (8 * k))

/-- Reporting an outcome: `ERR <- code` and nothing else. `raise <Error>` of the pseudocode is this with an error; it is
a reported value and never a trap: no vector, no saved state, no mode change, nothing to return from (R12, R116,
R125). -/
def State.report (e : ErrCode) (s : State) : State := { s with err := e }

/-- A register with every byte that the host has not written replaced by the byte `free` gives. -/
def fillBytes {n w : Nat} (written : Vector Bool n) (free : Nat → Byte) (v : BitVec w) : BitVec w :=
  (List.finRange n).foldl (fun v k => bif written[k] then v else putByte v k.val (free k.val)) v

/-- The operand registers with every unwritten byte replaced by the byte `free` gives. -/
def OperandRegs.fill (o : OperandRegs) (free : OperandReg → Nat → Byte) : OperandRegs :=
  { o with
    addr := fillBytes o.written.addr (free .addr) o.addr
    argHi := bif o.written.argHi then o.argHi else free .argHi 0
    argLo := bif o.written.argLo then o.argLo else free .argLo 0
    argD := fillBytes o.written.argD (free .argD) o.argD
    argB := bif o.written.argB then o.argB else free .argB 0 }

/-- Recording the model fault `UnwrittenOperand`, which names the command and the register (R128). The record is sticky:
an earlier one stays (R40; log entry 8). -/
def State.recordFault (i : Instr) (r : OperandReg) (s : State) : State :=
  { s with faultRec := s.faultRec.or (some (.unwrittenOperand i r)) }

/-- Each bus request appends one entry to the bus event log at the moment it is made (R53). -/
def State.logEvent (e : BusEvent) (s : State) : State := { s with busLog := s.busLog ++ [e] }

/-- What the bus driver answers to the next selection (R53, R55). -/
def State.selectAnswer (s : State) : SelectAnswer :=
  match s.driver.selects with
  | r :: _ => r
  | [] => bif Config.freeSelect s.fresh then .found else .notFound

/-- What the bus driver returns to the `k`-th byte read from here, `k` = 0 being the next (R53, R55). -/
def State.byteAnswer (s : State) (k : Nat) : Byte := (s.driver.bytes[k]?).getD (Config.freeByte (s.fresh + k))

/-- The driver's answer to a selection has been taken. -/
def State.tookSelect (s : State) : State :=
  { s with driver := { s.driver with selects := s.driver.selects.tail }, fresh := s.fresh + 1 }

/-- The driver's answer to a byte read has been taken. -/
def State.tookByte (s : State) : State :=
  { s with driver := { s.driver with bytes := s.driver.bytes.tail }, fresh := s.fresh + 1 }

/-- `BusSelect(a)` logs `Sel(a, r)` and returns `r` (R53). -/
def State.busSelect (a : Addr) (s : State) : SelectAnswer × State :=
  (s.selectAnswer, s.tookSelect.logEvent (.sel a s.selectAnswer))

/-- `BusWriteByte(b)` logs `Wr(b)` (R53). -/
def State.busWriteByte (b : Byte) (s : State) : State := s.logEvent (.wr b)

/-- `BusReadByte()` logs `Rd(b)` and returns `b` (R53). -/
def State.busReadByte (s : State) : Byte × State :=
  (s.byteAnswer 0, s.tookByte.logEvent (.rd (s.byteAnswer 0)))

/-- `BusPullUp(level)` logs `Pu(level)` (R53). -/
def State.busPullUp (l : PullLevel) (s : State) : State := s.logEvent (.pu l)

/-- The results every bus command invalidates at its start (R27, R28, R32, R73). -/
def State.invalidate (s : State) : State :=
  { s with spValid := false, tempValid := false, temp := Config.tempSentinel }

/-- Back to weak pull-up, requested only when strong pull-up was on (R54, R73). -/
def State.releasePullUp (s : State) : State :=
  bif s.strongPuReq then { s.busPullUp .weak with strongPuReq := false } else s

/-- The prologue of every bus command (R73). -/
def State.prologue (s : State) : State := s.invalidate.releasePullUp

/-- Selecting the device: on `NotFound` the command raises `DeviceNotFound` and ends right there, on `Found` it goes on
(R75, R81, R84, R87, R118). -/
def State.selectDevice (a : Addr) (found : State → State) (s : State) : State :=
  match s.busSelect a with
  | (.notFound, t) => t.report .deviceNotFound
  | (.found, t) => found t

end Sys2Proof.Machine
end

