-- ==== Sys2Proof/Machine/Operands.lean ====
section
/-! DEFINITION. The operands of a command: which registers it reads (spec 30_encoding.md R61), what it gets from them,
and the model fault that reading one not written since reset records (10_state.md R37, 60_exceptions.md R128; log entry 8).
The scratchpad operands of TDECODE are result registers and are read in its meaning. -/

namespace Sys2Proof.Machine

/-- The operand registers each command reads, in the order its pseudocode reads them (R61). -/
def operandsOf : Instr → List OperandReg
  | .nop => []
  | .spread => [.addr]
  | .spwrite => [.addr, .argHi, .argLo]
  | .spstore => [.addr]
  | .sprecall => [.addr]
  | .tdecode => []
  | .almenc => [.argD]
  | .almdec => [.argB]

/-- Every byte of the register has been written since reset (R37). -/
def OperandRegs.isWritten (o : OperandRegs) : OperandReg → Bool
  | .addr => o.written.addr.toList.all id
  | .argHi => o.written.argHi
  | .argLo => o.written.argLo
  | .argD => o.written.argD.toList.all id
  | .argB => o.written.argB

/-- The first operand register of the command that has a byte not written since reset, if any (R37; the order is log
entry 6). -/
def State.firstUnwritten (i : Instr) (s : State) : Option OperandReg :=
  (operandsOf i).find? fun r => !s.operands.isWritten r

/-- The values a command reads from the operand registers: the written bytes, and an unspecified value for every other
(R61, R90; R128: in hardware the command runs with it; log entry 8). -/
def State.operandValues (s : State) : OperandRegs := s.operands.fill (Config.freeOperand s.fresh)

/-- The fault record after a command has read its operands: a command that reads one not written since reset records the
fault (R37, R128). -/
def State.markUnwritten (i : Instr) (s : State) : State :=
  match s.firstUnwritten i with
  | some r => s.recordFault i r
  | none => s

/-- A command reads all its operands once, before anything else, and uses those values throughout (R90). -/
def withOperands (i : Instr) (run : OperandRegs → State → State) (s : State) : Host.Outcome State Fault Refusal :=
  .next (run s.operandValues (s.markUnwritten i))

end Sys2Proof.Machine
end

