-- ==== Sys2Proof/Machine/Fields.lean ====
section
/-! DEFINITION. The scratchpad's field map and the local commands ALMENC, ALMDEC and NOP (spec 41_field_extraction.md
R91 to R103). -/

namespace Sys2Proof.Machine

/-- The fields of a scratchpad (R91, R92). -/
structure ScratchpadFields where
  tempLsb        : Byte
  tempMsb        : Byte
  alarmHigh      : Byte
  alarmLow       : Byte
  reserved4      : Byte
  reserved5      : Byte
  countRemain    : Byte
  countPerDegree : Byte
  crc            : Byte
deriving DecidableEq, Repr

/-- `Fields`: field extraction at the fixed positions (R92). -/
def fieldsOf (s : Vector Byte 9) : ScratchpadFields where
  tempLsb := s[0]
  tempMsb := s[1]
  alarmHigh := s[2]
  alarmLow := s[3]
  reserved4 := s[4]
  reserved5 := s[5]
  countRemain := s[6]
  countPerDegree := s[7]
  crc := s[8]

/-- The sign of the raw reading: every non-zero byte 1 is negative (R93). -/
def negativeReading (f : ScratchpadFields) : Bool := decide (f.tempMsb ≠ 0)

/-- Signed degrees to a sign-magnitude byte: the low seven bits of the magnitude under the sign bit (R98, with
90_conflicts.md C5; R99: out of range truncates silently). -/
def alarmEncode (d : Int) : Byte :=
  if 0 ≤ d then BitVec.ofInt 8 d &&& 0x7F else 0x80 ||| (BitVec.ofInt 8 (-d) &&& 0x7F)

/-- Sign-magnitude byte to signed degrees (R100). -/
def alarmDecode (b : Byte) : Int := if b.getLsbD 7 then -((b &&& 0x7F).toNat : Int) else ((b &&& 0x7F).toNat : Int)

/-- ALMENC with its operand read (R98). -/
def almencRun (o : OperandRegs) (s : State) : State :=
  ({ s with resByte := alarmEncode o.argD.toInt, resByteSet := true }).report .ok

/-- ALMENC, CMD 0x06 (R98, R99). -/
def execAlmenc (s : State) : Host.Outcome State Fault Refusal := withOperands .almenc almencRun s

/-- ALMDEC with its operand read: the result is sign-extended to 16 bits (R100, R101). -/
def almdecRun (o : OperandRegs) (s : State) : State :=
  ({ s with resDeg := BitVec.ofInt 16 (alarmDecode o.argB), resDegSet := true }).report .ok

/-- ALMDEC, CMD 0x07 (R100, R101). -/
def execAlmdec (s : State) : Host.Outcome State Fault Refusal := withOperands .almdec almdecRun s

/-- NOP, CMD 0x00: no effect; `ERR` keeps the previous command's code (R103). -/
def execNop (s : State) : Host.Outcome State Fault Refusal := .next s

end Sys2Proof.Machine
end

