-- ==== Sys2Proof/Machine/Temperature.lean ====
section
/-! DEFINITION. The temperature decoder and the command TDECODE (spec 42_temperature_decode.md R104 to R115). All
arithmetic is on exact integers (R11). -/

namespace Sys2Proof.Machine

/-- What `Decode` returns (R104). -/
inductive DecodeResult where
  | temperature (t : S16)
  | malformedScratchpad
deriving DecidableEq, Repr

/-- Step 1, the base count: byte 0 unsigned, times 500 or -500 by the sign flag (R105). -/
def baseCount (f : ScratchpadFields) : Int :=
  if negativeReading f then (f.tempLsb.toNat : Int) * (-500) else (f.tempLsb.toNat : Int) * 500

/-- Step 2, the high-resolution correction; the division truncates toward zero (R106). -/
def correction (f : ScratchpadFields) : Int :=
  -250 + Int.tdiv (1000 * ((f.countPerDegree.toNat : Int) - (f.countRemain.toNat : Int))) (f.countPerDegree.toNat : Int)

/-- The millidegree intermediate (R15, R104). -/
def millidegrees (f : ScratchpadFields) : Int := baseCount f + correction f

/-- Step 3, the result in tenths of a degree, before `to_s16` (R107). -/
def tenthsOfDegree (f : ScratchpadFields) : Int := Int.tdiv (millidegrees f) 100

/-- `Decode`: a zero count-per-degree is malformed and no division is done; otherwise the three steps (R104, R108). -/
def decodeTemperature (s : Vector Byte 9) : DecodeResult :=
  if (fieldsOf s).countPerDegree = 0 then .malformedScratchpad
  else .temperature (BitVec.ofInt 16 (tenthsOfDegree (fieldsOf s)))

/-- TDECODE's failure: `TEMP` is the sentinel, `TEMP_VALID` is 0, then the error is raised (R109). -/
def State.decodeFailed (e : ErrCode) (s : State) : State :=
  ({ s with temp := Config.tempSentinel, tempValid := false }).report e

/-- TDECODE's success (R109). -/
def State.decodeOk (t : S16) (s : State) : State := ({ s with temp := t, tempValid := true }).report .ok

/-- TDECODE: only a verified scratchpad is decoded (R109, R110). -/
def tdecodeRun (s : State) : State :=
  if s.spValid = false then s.decodeFailed .noValidScratchpad
  else
    match decodeTemperature s.sp with
    | .malformedScratchpad => s.decodeFailed .malformedScratchpad
    | .temperature t => s.decodeOk t

/-- TDECODE, CMD 0x05 (R109 to R115). It reads no operand register (R61). -/
def execTdecode (s : State) : Host.Outcome State Fault Refusal := .next (tdecodeRun s)

end Sys2Proof.Machine
end

