-- ==== Sys2Proof/Machine/Transfer.lean ====
section
/-! DEFINITION. The four bus commands SPREAD, SPWRITE, SPSTORE and SPRECALL, and the CRC check (spec
40_scratchpad_transfer.md R73 to R90). -/

namespace Sys2Proof.Machine

/-- `Crc(b[0..7])`: the running CRC over the first eight bytes (R74). -/
def crcOf (p : Params) (b : Vector Byte 9) : Byte := (b.toList.take 8).foldl p.crc8Step p.crcInit

/-- `CrcOk(b[0..8])`: the computed CRC equals the ninth byte (R74). -/
def crcOk (p : Params) (b : Vector Byte 9) : Bool := crcOf p b == b[8]

/-- The positions of the scratchpad, in the order the bytes arrive (R45, R76). -/
def spPositions : List (Fin 9) := [0, 1, 2, 3, 4, 5, 6, 7, 8]

/-- One turn of SPREAD's loop: read byte `i`, store it in `SP[i]`, and step `CRC_ACC` over bytes 0..7 only (R36, R75). -/
def spreadByte (p : Params) (acc : Byte × State) (i : Fin 9) : Byte × State :=
  match acc.2.busReadByte with
  | (b, s) => (if i.val ≤ 7 then p.crc8Step acc.1 b else acc.1, { s with sp := s.sp.set i b })

/-- SPREAD's loop over all nine positions: `CRC_ACC` and the state after it (R75, R76). -/
def spreadLoop (p : Params) (s : State) : Byte × State := spPositions.foldl (spreadByte p) (p.crcInit, s)

/-- SPREAD's end: `CRC_CALC` is written, then compared with the ninth byte (R75). -/
def spreadCheck (acc : Byte) (s : State) : State :=
  let t : State := { s with crcCalc := acc, crcCalcSet := true }
  if acc ≠ t.sp[8] then t.report .crcMismatch else ({ t with spValid := true }).report .ok

/-- SPREAD after the device is found (R75). -/
def spreadFound (p : Params) (s : State) : State :=
  let r := spreadLoop p (s.busWriteByte p.opReadSp)
  spreadCheck r.1 r.2

/-- SPREAD under given parameters, with its operands read (R75, R90). -/
def spreadWith (p : Params) (o : OperandRegs) (s : State) : State := s.prologue.selectDevice o.addr (spreadFound p)

/-- SPREAD, CMD 0x01: read and verify the scratchpad (R75 to R80). -/
def execSpread (s : State) : Host.Outcome State Fault Refusal := withOperands .spread (spreadWith Config.params) s

/-- SPWRITE after the device is found: the command byte, then the two thresholds, high then low (R81). -/
def spwriteFound (p : Params) (h l : Byte) (s : State) : State :=
  (((s.busWriteByte p.opWriteSp).busWriteByte h).busWriteByte l).report .ok

/-- SPWRITE under given parameters, with its operands read (R81, R90). -/
def spwriteWith (p : Params) (o : OperandRegs) (s : State) : State :=
  s.prologue.selectDevice o.addr (spwriteFound p o.argHi o.argLo)

/-- SPWRITE, CMD 0x02: write the two threshold bytes (R81 to R83). -/
def execSpwrite (s : State) : Host.Outcome State Fault Refusal := withOperands .spwrite (spwriteWith Config.params) s

/-- SPSTORE after the device is found: the command byte, then strong pull-up (R84). -/
def spstoreFound (p : Params) (s : State) : State :=
  ({ (s.busWriteByte p.opCopySp).busPullUp .strong with strongPuReq := true }).report .ok

/-- SPSTORE under given parameters, with its operand read (R84, R90). -/
def spstoreWith (p : Params) (o : OperandRegs) (s : State) : State := s.prologue.selectDevice o.addr (spstoreFound p)

/-- SPSTORE, CMD 0x03: copy the scratchpad to non-volatile memory (R84 to R86). -/
def execSpstore (s : State) : Host.Outcome State Fault Refusal := withOperands .spstore (spstoreWith Config.params) s

/-- SPRECALL after the device is found: the command byte (R87). -/
def sprecallFound (p : Params) (s : State) : State := (s.busWriteByte p.opRecallEe).report .ok

/-- SPRECALL under given parameters, with its operand read (R87, R90). -/
def sprecallWith (p : Params) (o : OperandRegs) (s : State) : State := s.prologue.selectDevice o.addr (sprecallFound p)

/-- SPRECALL, CMD 0x04: recall non-volatile memory into the device's scratchpad (R87, R88). -/
def execSprecall (s : State) : Host.Outcome State Fault Refusal := withOperands .sprecall (sprecallWith Config.params) s

end Sys2Proof.Machine
end

