-- ==== Sys2Proof/Machine/Dispatch.lean ====
section
/-! DEFINITION. One arm per command: the effect of each command on the state (spec 30_encoding.md R60). -/

namespace Sys2Proof.Machine

def exec (i : Instr) (s : State) : Host.Outcome State Fault Refusal :=
  match i with
  | .nop => Sys2Proof.Machine.execNop s
  | .spread => Sys2Proof.Machine.execSpread s
  | .spwrite => Sys2Proof.Machine.execSpwrite s
  | .spstore => Sys2Proof.Machine.execSpstore s
  | .sprecall => Sys2Proof.Machine.execSprecall s
  | .tdecode => Sys2Proof.Machine.execTdecode s
  | .almenc => Sys2Proof.Machine.execAlmenc s
  | .almdec => Sys2Proof.Machine.execAlmdec s

end Sys2Proof.Machine
end

