-- ==== Sys2Proof/Machine/Window.lean ====
section
/-! DEFINITION. The register window: what stands at each offset, what a host read returns and what a host write to a
register other than `CMD` does (spec 20_memory.md R41 to R48, 10_state.md R37, R39). -/

namespace Sys2Proof.Machine

/-- What stands at a window offset (R41). -/
inductive WinLoc where
  | cmd
  | status
  | argHi
  | argLo
  | argD (k : Fin 2)
  | argB
  | resByte
  | resDeg (k : Fin 2)
  | temp (k : Fin 2)
  | crcCalc
  | addr (k : Fin 8)
  | sp (i : Fin 9)
  | reserved
deriving DecidableEq, Repr

/-- The window's layout (R41). -/
def locate (off : WinOff) : WinLoc :=
  if h : 0x10 ≤ off.toNat ∧ off.toNat ≤ 0x17 then .addr ⟨off.toNat - 0x10, by omega⟩
  else if h : 0x18 ≤ off.toNat ∧ off.toNat ≤ 0x20 then .sp ⟨off.toNat - 0x18, by omega⟩
  else
    match off.toNat with
    | 0x00 => .cmd
    | 0x01 => .status
    | 0x02 => .argHi
    | 0x03 => .argLo
    | 0x04 => .argD 0
    | 0x05 => .argD 1
    | 0x06 => .argB
    | 0x07 => .resByte
    | 0x08 => .resDeg 0
    | 0x09 => .resDeg 1
    | 0x0A => .temp 0
    | 0x0B => .temp 1
    | 0x0C => .crcCalc
    | _ => .reserved

/-- Does the spec give the byte at this place a value (R39, R41)? An operand byte has one once it is written, `SP` while
`SP_VALID` = 1, and `CRC_CALC`, `RES_BYTE`, `RES_DEG` once a command has written them. -/
def State.specified (s : State) : WinLoc → Bool
  | .argHi => s.operands.written.argHi
  | .argLo => s.operands.written.argLo
  | .argD k => s.operands.written.argD[k]
  | .argB => s.operands.written.argB
  | .addr k => s.operands.written.addr[k]
  | .sp _ => s.spValid
  | .crcCalc => s.crcCalcSet
  | .resByte => s.resByteSet
  | .resDeg _ => s.resDegSet
  | .cmd | .status | .temp _ | .reserved => true

/-- The byte held at a place: `CMD` and reserved offsets read 0x00, multi-byte registers are little-endian (R41, R44,
R47, R48). -/
def State.heldByte (s : State) : WinLoc → Byte
  | .cmd => 0
  | .status => s.status
  | .argHi => s.operands.argHi
  | .argLo => s.operands.argLo
  | .argD k => byteOf s.operands.argD k
  | .argB => s.operands.argB
  | .resByte => s.resByte
  | .resDeg k => byteOf s.resDeg k
  | .temp k => byteOf s.temp k
  | .crcCalc => s.crcCalc
  | .addr k => byteOf s.operands.addr k
  | .sp i => s.sp[i]
  | .reserved => 0

/-- `MemRead(off, 1)`: the byte held there, or any value where the spec gives none (R39, R41; log entry 4). -/
def State.memRead (s : State) (off : WinOff) : Byte :=
  bif s.specified (locate off) then s.heldByte (locate off) else Config.freeRead s.host.reads.length off

/-- A host write to an operand byte changes that byte and its written flag (R37, R46); a write to any other place
changes nothing (R47). `CMD` is not written here: a write to it runs a command (R24). -/
def OperandRegs.putAt (o : OperandRegs) (v : Byte) : WinLoc → OperandRegs
  | .argHi => { o with argHi := v, written := { o.written with argHi := true } }
  | .argLo => { o with argLo := v, written := { o.written with argLo := true } }
  | .argD k => { o with argD := putByte o.argD k v, written := { o.written with argD := o.written.argD.set k true } }
  | .argB => { o with argB := v, written := { o.written with argB := true } }
  | .addr k => { o with addr := putByte o.addr k v, written := { o.written with addr := o.written.addr.set k true } }
  | .cmd | .status | .resByte | .resDeg _ | .temp _ | .crcCalc | .sp _ | .reserved => o

/-- A host write to an offset other than that of `CMD` (R46, R47). -/
def State.writeOperand (off : WinOff) (v : Byte) (s : State) : State :=
  { s with operands := s.operands.putAt v (locate off) }

/-- The window offset of a platform address: an access outside the 64 bytes at `WINDOW_BASE` is no access to this block
(R42; log entry 9). -/
def windowOffset (a : Nat) : Option WinOff :=
  if Config.windowBase ≤ a ∧ a < Config.windowBase + 64 then some (BitVec.ofNat 6 (a - Config.windowBase)) else none

end Sys2Proof.Machine
end

