-- ==== Sys2Proof/Machine/HostPort.lean ====
section
/-! DEFINITION. Serving the host: the write of `CMD` (spec 30_encoding.md R59), window reads and writes, reset, and the
order in which they take effect (20_memory.md R46 to R50, 60_exceptions.md R124, R129, 70_reset_and_hazards.md R135 to
R137). -/

namespace Sys2Proof.Machine

/-- A write of `CMD`: the byte is decoded once and the command it decodes to runs; a byte that is no command raises
`IllegalCommand` (R24, R59, R64, R65). -/
def writeCmd (c : Byte) (s : State) : Host.Outcome State Fault Refusal :=
  match decode c with
  | .ok i => exec i s
  | .error _ => .next (s.report .illegalCommand)

/-- A host read: the answer goes to the host and the block does not change (R46). -/
def State.answerRead (off : WinOff) (s : State) : State :=
  { s with host := { s.host with reads := s.host.reads ++ [(off, s.memRead off)] } }

/-- The platform's reset: every element of the block to its reset value, no bus request (R136). The host and the bus
driver are no part of the block, and no step clears the fault record (R40). The draw counter goes on, so that what an
operand register holds after reset is a new unspecified value (R38; log entry 10). -/
def State.platformReset (s : State) : State :=
  { State.reset with faultRec := s.faultRec, driver := s.driver, host := s.host, fresh := s.fresh + 1 }

/-- One host event (R41, R46, R47, R59, R129, R135). -/
def serve (e : HostEvent) (s : State) : Host.Outcome State Fault Refusal :=
  match e with
  | .read off => .next (s.answerRead off)
  | .write off v => if locate off = .cmd then writeCmd v s else .next (s.writeOperand off v)
  | .wide _ _ => .refused .wideAccess
  | .overlapping _ => .refused .overlappingAccess
  | .reset => .next s.platformReset

/-- The host's first event is taken from the queue. -/
def State.withQueue (q : List HostEvent) (s : State) : State := { s with host := { s.host with queue := q } }

/-- One step: with no event the block waits (R137); otherwise the host's next event takes effect, in the order the host
issued it (R50; log entry 7). -/
def advance (s : State) : Host.Outcome State Fault Refusal :=
  match s.host.queue with
  | [] => .next s
  | e :: q => serve e (s.withQueue q)

end Sys2Proof.Machine
end

