-- ==== Sys2Proof/Machine/Step.lean ====
section
/-! DEFINITION. The step. The block has no program counter and fetches nothing (spec 10_state.md R19): its next command is
the next byte the host writes to `CMD` (20_memory.md R50). -/

namespace Sys2Proof.Machine

/-- One step of the machine: the host's next event. -/
def step (s : State) : Host.Outcome State Fault Refusal := advance s

/-- The state in which the host's very next event is the write of the command byte `w` to `CMD` (R58, R59; log entry 7).
The length is always one byte. -/
def State.withFetchWord (s : State) (_nbits w : Nat) : State :=
  s.withQueue (.write 0x00#6 (BitVec.ofNat 8 w) :: s.host.queue)

end Sys2Proof.Machine
end

