-- ==== Sys2Proof/Machine/Script.lean ====
section
/-! DEFINITION. Host scripts: what a script line and a pseudo-instruction expand to (spec 30_encoding.md R69, R70, R72),
and the host sequences SetThresholds and GetThresholds (R71). These are what a host does, not commands of the block. -/

namespace Sys2Proof

/-- The lowest window offset of a register (R41). -/
def WinReg.base : WinReg → WinOff
  | .cmd => 0x00
  | .status => 0x01
  | .argHi => 0x02
  | .argLo => 0x03
  | .argD => 0x04
  | .argB => 0x06
  | .resByte => 0x07
  | .resDeg => 0x08
  | .temp => 0x0A
  | .crcCalc => 0x0C
  | .addr => 0x10
  | .sp i => 0x18 + BitVec.ofNat 6 i.val

/-- The window offsets of a register, lowest first (R69). -/
def WinReg.offsets (r : WinReg) : List WinOff := (List.range r.byteCount).map fun k => r.base + BitVec.ofNat 6 k

/-- One line is one `MemRead` or `MemWrite` per byte, lowest offset first; a mnemonic alone is the write of its `CMD`
byte (R69). A negative number is its two's complement (R72). -/
def ScriptLine.events : ScriptLine → List HostEvent
  | .wr r v =>
    (List.range r.byteCount).map fun k =>
      .write (r.base + BitVec.ofNat 6 k) (Machine.byteOf (BitVec.ofInt 64 v) k)
  | .rd r => r.offsets.map .read
  | .command i => [.write 0x00#6 (encode i)]

/-- The expansions of the pseudo-instructions (R70). -/
def Pseudo.expand : Pseudo → List ScriptLine
  | .spread a => [.wr .addr a, .command .spread]
  | .spwrite a h l => [.wr .addr a, .wr .argHi h, .wr .argLo l, .command .spwrite]
  | .spstore a => [.wr .addr a, .command .spstore]
  | .sprecall a => [.wr .addr a, .command .sprecall]
  | .almenc d => [.wr .argD d, .command .almenc]
  | .almdec b => [.wr .argB b, .command .almdec]
  | .readtemp a => [.wr .addr a, .command .spread, .command .tdecode, .rd .status, .rd .temp]

/-- The host events of a pseudo-instruction (R69, R70). -/
def Pseudo.events (p : Pseudo) : List HostEvent := p.expand.flatMap ScriptLine.events

namespace Machine

/-- Go on from the next state. -/
def andThen {α : Type} (o : Host.Outcome State Fault Refusal) (f : State → Host.Outcome α Fault Refusal) :
    Host.Outcome α Fault Refusal :=
  match o with
  | .next s => f s
  | .fault r => .fault r
  | .refused r => .refused r

/-- The events, one after another (R50). -/
def serveAll : List HostEvent → State → Host.Outcome State Fault Refusal
  | [], s => .next s
  | e :: es, s => andThen (serve e s) (serveAll es)

/-- The byte the host's last read returned. -/
def State.lastRead (s : State) : Byte := ((s.host.reads.getLast?).map Prod.snd).getD 0

/-- The 16-bit register the host has just read, low byte first (R44, R69). -/
def State.lastRead16 (s : State) : S16 := s.lastRead ++ ((s.host.reads.dropLast.getLast?).map Prod.snd).getD 0

/-- `SetThresholds a, h, l` (R71): encode both thresholds, then write them. -/
def setThresholds (a h l : Int) (s : State) : Host.Outcome State Fault Refusal :=
  andThen (serveAll ((Pseudo.almenc h).events ++ (ScriptLine.rd .resByte).events) s) fun s1 =>
    andThen (serveAll ((Pseudo.almenc l).events ++ (ScriptLine.rd .resByte).events) s1) fun s2 =>
      serveAll (Pseudo.spwrite a s1.lastRead.toNat s2.lastRead.toNat).events s2

/-- What `GetThresholds` gives the host (R71). -/
inductive ThresholdsResult where
  | failed (err : BitVec 3)
  | thresholds (high low : Int)
deriving DecidableEq, Repr

/-- One threshold of `GetThresholds`: read the scratchpad byte, decode it, read the degrees (R71). -/
def readThreshold (i : Fin 9) (s : State) : Host.Outcome State Fault Refusal :=
  andThen (serveAll (ScriptLine.rd (.sp i)).events s) fun t =>
    serveAll ((Pseudo.almdec t.lastRead.toNat).events ++ (ScriptLine.rd .resDeg).events) t

/-- `GetThresholds a` (R71): the high threshold stands at `SP[2]`, the low one at `SP[3]` (R94, D10). -/
def getThresholds (a : Int) (s : State) : Host.Outcome (State × ThresholdsResult) Fault Refusal :=
  andThen (serveAll ((Pseudo.spread a).events ++ (ScriptLine.rd .status).events) s) fun s1 =>
    if s1.lastRead.extractLsb' 0 3 ≠ 0 then .next (s1, .failed (s1.lastRead.extractLsb' 0 3))
    else
      andThen (readThreshold 2 s1) fun s2 =>
        andThen (readThreshold 3 s2) fun s3 =>
          .next (s3, .thresholds s2.lastRead16.toInt s3.lastRead16.toInt)

end Machine

end Sys2Proof
end

