-- ==== Sys2Proof/Machine/Strict.lean ====
section
/-! DEFINITION. The strict reading of a run, word for word as the spec bounds its own model (10_state.md R37, R40,
60_exceptions.md R124, R128): a command that would read an operand register not written since reset records the fault and
does nothing else, and nothing is admitted after it. The machine itself (`exec`, `step`) goes on in both cases, as R128 says
that the hardware does (log entry 8). -/

namespace Sys2Proof.Machine

/-- A command in the strict reading: on an unwritten operand it makes no bus request and writes no block state (R128). -/
def strictExec (i : Instr) (s : State) : Host.Outcome State Fault Refusal :=
  match s.firstUnwritten i with
  | some r => .next (s.recordFault i r)
  | none => exec i s

/-- The command that the host's next event starts, if it starts one (R24, R59). -/
def State.nextCommand (s : State) : Option Instr :=
  match s.host.queue with
  | .write off c :: _ => if locate off = .cmd then (decode c).toOption else none
  | _ => none

/-- A step in the strict reading; `none` where nothing is admitted, because a fault is recorded (R40). -/
def strictStep (s : State) : Option (Host.Outcome State Fault Refusal) :=
  match s.faultRec with
  | some _ => none
  | none =>
    match s.nextCommand with
    | some i => some (strictExec i (s.withQueue s.host.queue.tail))
    | none => some (step s)

end Sys2Proof.Machine
end

