-- ==== Sys2Proof/Safety.lean ====
section
/-! DEFINITION. The terms claims use: when a command's operands are ready, when a state is sound, and when two states look
the same from outside. -/

namespace Sys2Proof.Safety

open Sys2Proof.Machine

/-- Every operand register the command reads has been written since reset (R37, R138). -/
def OperandsReady (i : Instr) (s : State) : Prop := ∀ r ∈ operandsOf i, s.operands.isWritten r = true

/-- The bus commands (R15). -/
def isBusCommand : Instr → Bool
  | .spread | .spwrite | .spstore | .sprecall => true
  | .nop | .tdecode | .almenc | .almdec => false

/-- A sign-magnitude byte as a number: bit 7 is the sign, bits 0 to 6 the magnitude (R14, R100). -/
def signMagnitude (b : Byte) : Int := if 128 ≤ b.toNat then -((b.toNat : Int) - 128) else (b.toNat : Int)

/-- The window offsets at which a command may change what the host reads (R31, R32, R34, R35, R73, R98, R100, R109). -/
def mayChange : Instr → List WinOff
  | .nop => []
  | .almenc => [0x01#6, 0x07#6]
  | .almdec => [0x01#6, 0x08#6, 0x09#6]
  | .tdecode => [0x01#6, 0x0A#6, 0x0B#6]
  | .spwrite | .spstore | .sprecall => [0x01#6, 0x0A#6, 0x0B#6] ++ (WinReg.sp <$> spPositions).flatMap WinReg.offsets
  | .spread => [0x01#6, 0x0A#6, 0x0B#6, 0x0C#6] ++ (WinReg.sp <$> spPositions).flatMap WinReg.offsets

/-- The pull-up levels requested so far, oldest first. -/
def pullRequests (log : List BusEvent) : List PullLevel :=
  log.filterMap fun
    | .pu l => some l
    | _ => none

/-- The pull-up level the bus driver was last asked for: weak from reset on (R136). -/
def pullLevel (log : List BusEvent) : PullLevel := (pullRequests log).getLast?.getD .weak

/-- Each pull-up request asks for a level other than the one before it, the first for a level other than weak (R54,
R136). -/
def pullsAlternate (log : List BusEvent) : Prop := List.IsChain (fun a b => a ≠ b) (PullLevel.weak :: pullRequests log)

/-- What the prologue logs when `STRONG_PU_REQ` is `strong` (R54, R73). -/
def releaseEntries (strong : Bool) : List BusEvent := bif strong then [.pu .weak] else []

/-- The nine bytes the bus driver returns to nine reads from `s` (R53, R55). -/
def nineAnswers (s : State) : Vector Byte 9 :=
  #v[s.byteAnswer 0, s.byteAnswer 1, s.byteAnswer 2, s.byteAnswer 3, s.byteAnswer 4, s.byteAnswer 5, s.byteAnswer 6,
    s.byteAnswer 7, s.byteAnswer 8]

/-- The nine bytes a SPREAD issued in `s` receives: its reads come after its selection (R75). -/
def receivedBytes (s : State) : Vector Byte 9 := nineAnswers s.tookSelect

/-- The state of a bus command right after the selection of `a`: the prologue has run (R73) and `Sel` is logged (R53). -/
def afterSelect (a : Addr) (s : State) : State :=
  { s with
    spValid := false
    tempValid := false
    temp := Config.tempSentinel
    strongPuReq := false
    busLog := s.busLog ++ releaseEntries s.strongPuReq ++ [.sel a s.selectAnswer]
    driver := { s.driver with selects := s.driver.selects.tail }
    fresh := s.fresh + 1 }

/-- The log entries of a SPREAD that found its device and received `sp` (R75). -/
def spreadEntries (a : Addr) (sp : Vector Byte 9) : List BusEvent :=
  .sel a .found :: .wr Config.params.opReadSp :: sp.toList.map .rd

/-- What holds in every state a run can reach. -/
structure Sound (s : State) : Prop where
  /-- `TEMP` is the sentinel exactly when `TEMP_VALID` = 0 (R115). -/
  sentinel : s.temp = Config.tempSentinel ↔ s.tempValid = false
  /-- A valid temperature stands beside the verified scratchpad it was decoded from (R28, R143). -/
  decoded : s.tempValid = true → s.spValid = true ∧ decodeTemperature s.sp = .temperature s.temp
  /-- A valid scratchpad's CRC verified, and `CRC_CALC` is that CRC (R27, R31). -/
  verified : s.spValid = true → crcOf Config.params s.sp = s.sp[8] ∧ s.crcCalc = s.sp[8] ∧ s.crcCalcSet = true
  /-- A valid scratchpad is what the most recent bus command, a SPREAD, received (R27). -/
  received : s.spValid = true → ∃ before a, s.busLog = before ++ spreadEntries a s.sp
  /-- `STRONG_PU_REQ` is the level the bus driver was last asked for (R29). -/
  pullUp : s.strongPuReq = true ↔ pullLevel s.busLog = .strong
  /-- A pull-up entry is logged only when the level changes (R54). -/
  pulls : pullsAlternate s.busLog
  /-- `RES_DEG` lies in [-127, 127] once written (R35). -/
  degrees : s.resDegSet = true → -127 ≤ s.resDeg.toInt ∧ s.resDeg.toInt ≤ 127

/-- The operand registers with every byte that the spec gives no value hidden (R37, R38, R41). -/
def hideUnwritten (o : OperandRegs) : OperandRegs := o.fill fun _ _ => 0

/-- The state with every register byte that the spec gives no value hidden (R38, R39, R41). -/
def hideUnspecified (s : State) : State :=
  { s with
    operands := hideUnwritten s.operands
    sp := bif s.spValid then s.sp else Vector.replicate 9 0
    crcCalc := bif s.crcCalcSet then s.crcCalc else 0
    resByte := bif s.resByteSet then s.resByte else 0
    resDeg := bif s.resDegSet then s.resDeg else 0 }

/-- Two outcomes agree up to what R38, R39 and R41 leave unspecified. -/
def OutcomesAgree : Host.Outcome State Fault Refusal → Host.Outcome State Fault Refusal → Prop
  | .next s, .next t => hideUnspecified s = hideUnspecified t
  | .fault a, .fault b => a = b
  | .refused a, .refused b => a = b
  | _, _ => False

end Sys2Proof.Safety
end

