-- ==== Sys2Proof/Certificates/Slice0/Obligations.lean ====
section
/-! DEFINITION. The statements for the provers, each from the numbered rules of spec/ that its docstring names. -/

open Sys2Proof Sys2Proof.Machine Sys2Proof.Safety

/-! ### Encoding -/

/-- R60, R64, R65: words written out from the opcode map decode to the commands they stand for, and words outside it are
rejected. -/
def Obligations.OpcodeMapWordsDecode : Prop :=
  decode 0x00#8 = .ok .nop ∧ decode 0x01#8 = .ok .spread ∧ decode 0x02#8 = .ok .spwrite ∧
  decode 0x03#8 = .ok .spstore ∧ decode 0x04#8 = .ok .sprecall ∧ decode 0x05#8 = .ok .tdecode ∧
  decode 0x06#8 = .ok .almenc ∧ decode 0x07#8 = .ok .almdec ∧ decode 0x08#8 = .error .reservedOp ∧
  decode 0x0F#8 = .error .reservedOp ∧ decode 0x11#8 = .error .reservedBits ∧ decode 0x81#8 = .error .reservedBits

/-- R59, R60, R68: a byte decodes to a command exactly when it is that command's encoding, so no two commands share a
byte and no byte has two meanings. -/
def Obligations.DecodeAgreesWithEncode : Prop := ∀ (c : Byte) (i : Instr), decode c = .ok i ↔ c = encode i

/-! ### The step -/

/-- R24, R50, R59: when the host's next event is the write to `CMD` of a byte that decodes to `i`, the step is `exec i`
at that state with the event taken from the queue; and `withFetchWord` is that event put first. -/
def Obligations.StepRunsTheDecodedCommand : Prop :=
  (∀ (s : State) (c : Byte) (i : Instr) (q : List HostEvent),
    s.host.queue = .write 0x00#6 c :: q → decode c = .ok i → step s = exec i (s.withQueue q)) ∧
  (∀ (s : State) (w : Nat) (i : Instr), decode (BitVec.ofNat 8 w) = .ok i → step (s.withFetchWord 8 w) = exec i s)

/-- R64, R65, R122: a reserved or illegal `CMD` value writes `ERR` = IllegalCommand and changes nothing else. -/
def Obligations.ReservedCommandBytesRaiseIllegalCommand : Prop :=
  ∀ (s : State) (c : Byte) (q : List HostEvent), s.host.queue = .write 0x00#6 c :: q →
    (c.extractLsb' 4 4 ≠ 0#4 ∨ 8 ≤ (c.extractLsb' 0 4).toNat) →
    step s = .next { s with err := .illegalCommand, host := { s.host with queue := q } }

/-- R137: with no host event the block waits. -/
def Obligations.IdleBlockWaits : Prop := ∀ s : State, s.host.queue = [] → step s = .next s

/-- R43, R129, R142: a wide access and an access during a command have no step, whatever state they meet. -/
def Obligations.ProtocolViolationsHaveNoStep : Prop :=
  ∀ (s : State) (q : List HostEvent) (off : WinOff) (n : Nat),
    (s.host.queue = .wide off n :: q → step s = .refused .wideAccess) ∧
    (s.host.queue = .overlapping off :: q → step s = .refused .overlappingAccess)

/-- R37, R40, R128, in the strict reading of a run (`strictExec`, `strictStep`), which is how the spec bounds its own model:
a command that reads an operand register not written since reset records `UnwrittenOperand`, naming the command and an
unwritten operand, and changes nothing else; after it no command is admitted. Two clauses are the model's choice: that no
host event at all is admitted after it, neither a read nor a reset nor waiting (log entry 8), and which of several unwritten
operands is named (log entry 6; the statement leaves it open). What the machine does then: CommandsRunOnUnwrittenOperands. -/
def Obligations.UnwrittenOperandIsRecordedAndStopsTheRun : Prop :=
  ∀ (i : Instr) (s : State) (r : OperandReg), s.faultRec = none → r ∈ operandsOf i → s.operands.isWritten r = false →
    ∃ r' ∈ operandsOf i, s.operands.isWritten r' = false ∧
      strictExec i s = .next { s with faultRec := some (.unwrittenOperand i r') } ∧
      ∀ q, strictStep ({ s with faultRec := some (.unwrittenOperand i r') }.withQueue q) = none

/-! ### Commands: results, with everything they leave unchanged -/

/-- R103: `CMD` 0x00 is NOP; it has no effect; `ERR` keeps the previous command's code. -/
def Obligations.NopChangesNothing : Prop := decode 0x00#8 = .ok .nop ∧ ∀ s : State, exec .nop s = .next s

/-- R74: the CRC is the step function folded over bytes 0 to 7 from `CRC_INIT`, under every step function, and the check
is equality with byte 8. -/
def Obligations.CrcFoldsTheFirstEightBytes : Prop :=
  ∀ (p : Params) (b : Vector Byte 9),
    (∀ x, crcOf p (b.set 8 x) = crcOf p b) ∧
    crcOf p b = p.crc8Step (p.crc8Step (p.crc8Step (p.crc8Step (p.crc8Step (p.crc8Step (p.crc8Step (p.crc8Step p.crcInit
      b[0]) b[1]) b[2]) b[3]) b[4]) b[5]) b[6]) b[7] ∧
    (crcOk p b = true ↔ crcOf p b = b[8])

/-- R75, R76: SPREAD on every path, once its operand is written (otherwise: UnwrittenOperandIsRecordedAndStopsTheRun and
CommandsRunOnUnwrittenOperands). With no device it raises DeviceNotFound right after the selection; otherwise it receives
exactly nine bytes, keeps and logs all of them, keeps the computed CRC, and the comparison with the ninth byte decides
`SP_VALID` and `ERR`. -/
def Obligations.SpreadReadsNineBytesAndVerifies : Prop :=
  decode 0x01#8 = .ok .spread ∧ ∀ s : State,
    let b := receivedBytes s
    let after := afterSelect s.operands.addr s
    let done : State :=
      { after with
        sp := b
        crcCalc := crcOf Config.params b
        crcCalcSet := true
        busLog := s.busLog ++ releaseEntries s.strongPuReq ++ spreadEntries s.operands.addr b
        driver := { selects := s.driver.selects.tail, bytes := s.driver.bytes.drop 9 }
        fresh := s.fresh + 10 }
    (s.faultRec = none → s.operands.isWritten .addr = false →
      strictExec .spread s = .next { s with faultRec := some (.unwrittenOperand .spread .addr) }) ∧
    (s.operands.isWritten .addr = true → s.selectAnswer = .notFound →
      exec .spread s = .next { after with err := .deviceNotFound }) ∧
    (s.operands.isWritten .addr = true → s.selectAnswer = .found → crcOf Config.params b ≠ b[8] →
      exec .spread s = .next { done with err := .crcMismatch }) ∧
    (s.operands.isWritten .addr = true → s.selectAnswer = .found → crcOf Config.params b = b[8] →
      exec .spread s = .next { done with spValid := true, err := .ok })

/-- R81: SPWRITE on every path, once its operands are written: the command byte, then the high and the low threshold byte,
unchanged. -/
def Obligations.SpwriteSendsHighThenLow : Prop :=
  decode 0x02#8 = .ok .spwrite ∧ ∀ s : State,
    (s.faultRec = none → (∃ r ∈ [OperandReg.addr, .argHi, .argLo], s.operands.isWritten r = false) →
      ∃ r ∈ [OperandReg.addr, .argHi, .argLo], s.operands.isWritten r = false ∧
        strictExec .spwrite s = .next { s with faultRec := some (.unwrittenOperand .spwrite r) }) ∧
    (OperandsReady .spwrite s → s.selectAnswer = .notFound →
      exec .spwrite s = .next { afterSelect s.operands.addr s with err := .deviceNotFound }) ∧
    (OperandsReady .spwrite s → s.selectAnswer = .found →
      exec .spwrite s = .next
        { afterSelect s.operands.addr s with
          err := .ok
          busLog := s.busLog ++ releaseEntries s.strongPuReq ++
            [.sel s.operands.addr .found, .wr Config.params.opWriteSp, .wr s.operands.argHi, .wr s.operands.argLo] })

/-- R84: SPSTORE on every path, once its operand is written: the command byte, then strong pull-up, which stays requested. -/
def Obligations.SpstoreRequestsStrongPullUp : Prop :=
  decode 0x03#8 = .ok .spstore ∧ ∀ s : State,
    (s.faultRec = none → s.operands.isWritten .addr = false →
      strictExec .spstore s = .next { s with faultRec := some (.unwrittenOperand .spstore .addr) }) ∧
    (s.operands.isWritten .addr = true → s.selectAnswer = .notFound →
      exec .spstore s = .next { afterSelect s.operands.addr s with err := .deviceNotFound }) ∧
    (s.operands.isWritten .addr = true → s.selectAnswer = .found →
      exec .spstore s = .next
        { afterSelect s.operands.addr s with
          err := .ok
          strongPuReq := true
          busLog := s.busLog ++ releaseEntries s.strongPuReq ++
            [.sel s.operands.addr .found, .wr Config.params.opCopySp, .pu .strong] })

/-- R87: SPRECALL on every path, once its operand is written: the command byte and nothing more. -/
def Obligations.SprecallSendsItsCommandByte : Prop :=
  decode 0x04#8 = .ok .sprecall ∧ ∀ s : State,
    (s.faultRec = none → s.operands.isWritten .addr = false →
      strictExec .sprecall s = .next { s with faultRec := some (.unwrittenOperand .sprecall .addr) }) ∧
    (s.operands.isWritten .addr = true → s.selectAnswer = .notFound →
      exec .sprecall s = .next { afterSelect s.operands.addr s with err := .deviceNotFound }) ∧
    (s.operands.isWritten .addr = true → s.selectAnswer = .found →
      exec .sprecall s = .next
        { afterSelect s.operands.addr s with
          err := .ok
          busLog := s.busLog ++ releaseEntries s.strongPuReq ++
            [.sel s.operands.addr .found, .wr Config.params.opRecallEe] })

/-- R104, R109, R112: TDECODE on every path. The formula is written out from the bytes; the result fits s16 and its
range, and nothing but `TEMP`, `TEMP_VALID` and `ERR` changes. -/
def Obligations.TdecodeComputesTheFormula : Prop :=
  decode 0x05#8 = .ok .tdecode ∧ ∀ s : State,
    let count : Int := (s.sp[0]).toNat
    let cr : Int := (s.sp[6]).toNat
    let cpd : Int := (s.sp[7]).toNat
    let base : Int := if s.sp[1] = 0x00#8 then count * 500 else count * (-500)
    (s.spValid = false → exec .tdecode s =
      .next { s with temp := Config.tempSentinel, tempValid := false, err := .noValidScratchpad }) ∧
    (s.spValid = true → s.sp[7] = 0x00#8 → exec .tdecode s =
      .next { s with temp := Config.tempSentinel, tempValid := false, err := .malformedScratchpad }) ∧
    (s.spValid = true → s.sp[7] ≠ 0x00#8 → ∃ v : S16,
      exec .tdecode s = .next { s with temp := v, tempValid := true, err := .ok } ∧
      v.toInt = Int.tdiv (base + (-250 + Int.tdiv (1000 * (cpd - cr)) cpd)) 100 ∧
      -3817 ≤ v.toInt ∧ v.toInt ≤ 1282)

/-- R98, R99: ALMENC writes the low seven bits of the magnitude under the sign bit, for every s16 operand once it
is written, and nothing else but `ERR`. -/
def Obligations.AlmencEncodesSignMagnitude : Prop :=
  decode 0x06#8 = .ok .almenc ∧ ∀ s : State,
    (s.faultRec = none → s.operands.isWritten .argD = false →
      strictExec .almenc s = .next { s with faultRec := some (.unwrittenOperand .almenc .argD) }) ∧
    (s.operands.isWritten .argD = true → ∃ r : Byte,
      exec .almenc s = .next { s with resByte := r, resByteSet := true, err := .ok } ∧
      (0 ≤ s.operands.argD.toInt → (r.toNat : Int) = s.operands.argD.toInt % 128) ∧
      (s.operands.argD.toInt < 0 → (r.toNat : Int) = 128 + (-s.operands.argD.toInt) % 128))

/-- R100, R101: ALMDEC writes the signed degrees of every byte, sign-extended, once the
operand is written, and nothing else but `ERR`. -/
def Obligations.AlmdecDecodesSignMagnitude : Prop :=
  decode 0x07#8 = .ok .almdec ∧ ∀ s : State,
    (s.faultRec = none → s.operands.isWritten .argB = false →
      strictExec .almdec s = .next { s with faultRec := some (.unwrittenOperand .almdec .argB) }) ∧
    (s.operands.isWritten .argB = true → ∃ v : S16,
      exec .almdec s = .next { s with resDeg := v, resDegSet := true, err := .ok } ∧
      v.toInt = signMagnitude s.operands.argB ∧ -127 ≤ v.toInt ∧ v.toInt ≤ 127)

/-! ### Whole-machine rules -/

/-- R118 (with R18, R30, R31, R73, R79, R84, R85, R87, R117): with no device every bus command ends right after its
selection: no command byte, no byte read, no strong pull-up, `SP` and `CRC_CALC` as before. That SPSTORE and SPRECALL check
the selection is the spec's decision D19; that a command with an unwritten operand selects at all is log entry 8. -/
def Obligations.DeviceNotFoundEndsEveryBusCommand : Prop :=
  ∀ (i : Instr) (s : State), isBusCommand i = true → s.selectAnswer = .notFound →
    ∃ t a, exec i s = .next t ∧ (s.operands.isWritten .addr = true → a = s.operands.addr) ∧ t.err = .deviceNotFound ∧
      t.strongPuReq = false ∧ t.busLog = s.busLog ++ releaseEntries s.strongPuReq ++ [.sel a .notFound] ∧
      t.sp = s.sp ∧ t.crcCalc = s.crcCalc ∧ t.spValid = false ∧ t.tempValid = false ∧
      t.temp = Config.tempSentinel ∧ t.driver.bytes = s.driver.bytes ∧ t.operands = s.operands

/-- R103, R117, R119, R120, R121, R122: each error has exactly the causes the table gives it, and NOP keeps the last outcome. -/
def Obligations.EachErrorHasExactlyItsCauses : Prop :=
  ∀ (i : Instr) (s t : State), exec i s = .next t →
    (i = .nop → t.err = s.err) ∧
    (i ≠ .nop →
      (t.err = .deviceNotFound ↔ isBusCommand i = true ∧ s.selectAnswer = .notFound) ∧
      (t.err = .crcMismatch ↔ i = .spread ∧ s.selectAnswer = .found ∧
        crcOf Config.params (receivedBytes s) ≠ (receivedBytes s)[8]) ∧
      (t.err = .malformedScratchpad ↔ i = .tdecode ∧ s.spValid = true ∧ s.sp[7] = 0x00#8) ∧
      (t.err = .noValidScratchpad ↔ i = .tdecode ∧ s.spValid = false) ∧
      t.err ≠ .illegalCommand)

/-- R119: a scratchpad that SPREAD accepts is refused when its ninth byte alone is corrupted, under every step function;
a following TDECODE does not decode it. That SPREAD runs, and ends so, where `ADDR` is unwritten is the model's choice (log
entry 8): R128 keeps its own model from running it. -/
def Obligations.CorruptedNinthByteIsNeverTrusted : Prop :=
  ∀ (s : State) (b : Vector Byte 9) (x : Byte) (rest : List Byte),
    s.selectAnswer = .found → s.driver.bytes = b.toList ++ rest → crcOf Config.params b = b[8] → x ≠ b[8] →
    (∃ t, exec .spread s = .next t ∧ t.spValid = true ∧ t.err = .ok ∧ t.sp = b) ∧
    ∃ t, exec .spread { s with driver := { s.driver with bytes := (b.set 8 x).toList ++ rest } } = .next t ∧
      t.spValid = false ∧ t.err = .crcMismatch ∧ t.sp = b.set 8 x ∧ t.crcCalc = b[8] ∧
      exec .tdecode t = .next { t with temp := Config.tempSentinel, tempValid := false, err := .noValidScratchpad }

/-- R97, R93, R105: TDECODE reads bytes 0, 6 and 7 and, of byte 1, only whether it is zero: any other difference between
two scratchpads leaves its results the same. -/
def Obligations.TdecodeReadsOnlyItsFields : Prop :=
  ∀ (s t : State) (b : Vector Byte 9), b[0] = s.sp[0] → (b[1] = 0x00#8 ↔ s.sp[1] = 0x00#8) → b[6] = s.sp[6] →
    b[7] = s.sp[7] → exec .tdecode s = .next t → exec .tdecode { s with sp := b } = .next { t with sp := b }

/-- R111: two TDECODEs with no bus command (and no reset) between them write the same `TEMP`, `TEMP_VALID` and `ERR`,
whatever else the host does in between: local commands, illegal `CMD` values, reads, operand writes. -/
def Obligations.RepeatedDecodeGivesTheSameResult : Prop :=
  ∀ (s t u v : State) (between : List HostEvent),
    (∀ e ∈ between, e ≠ .reset ∧ ∀ c i, e = .write 0x00#6 c → decode c = .ok i → isBusCommand i = false) →
    exec .tdecode s = .next t → serveAll between t = .next u → exec .tdecode u = .next v →
    v.temp = t.temp ∧ v.tempValid = t.tempValid ∧ v.err = t.err

/-- R112: the ranges of the decoder's intermediates over all scratchpads with a nonzero count-per-degree; each fits a
signed 20-bit integer, and the result is what `to_s16` keeps. -/
def Obligations.DecodeIntermediatesStayInRange : Prop :=
  ∀ b : Vector Byte 9, b[7] ≠ 0x00#8 →
    let f := fieldsOf b
    (-127500 ≤ baseCount f ∧ baseCount f ≤ 127500) ∧
    (-254000 ≤ 1000 * ((b[7].toNat : Int) - b[6].toNat) ∧ 1000 * ((b[7].toNat : Int) - b[6].toNat) ≤ 255000) ∧
    (-254250 ≤ correction f ∧ correction f ≤ 750) ∧
    (b[6] = 0x00#8 → correction f = 750) ∧
    (b[7] = 0x01#8 → b[6] = 0xFF#8 → correction f = -254250) ∧
    (-381750 ≤ millidegrees f ∧ millidegrees f ≤ 128250) ∧
    (-3817 ≤ tenthsOfDegree f ∧ tenthsOfDegree f ≤ 1282) ∧
    ∃ v, decodeTemperature b = .temperature v ∧ v.toInt = tenthsOfDegree f

/-- R102: the alarm round trip through the registers: for every s16 number of degrees, writing it, encoding it, decoding
the result gives it back exactly when it lies in [-127, 127]; 128 comes back as 0. -/
def Obligations.AlarmRoundTripThroughTheRegisters : Prop :=
  ∀ (s : State) (d : Int), -32768 ≤ d → d ≤ 32767 →
    ∃ t u, serveAll (Pseudo.almenc d).events s = .next t ∧
      serveAll (Pseudo.almdec (t.resByte.toNat : Int)).events t = .next u ∧
      (u.resDeg.toInt = d ↔ -127 ≤ d ∧ d ≤ 127) ∧ (d = 128 → u.resDeg.toInt = 0)

/-- R18: commands never write an operand register. -/
def Obligations.CommandsNeverWriteOperandRegisters : Prop :=
  ∀ (i : Instr) (s t : State), exec i s = .next t → t.operands = s.operands

/-- R33, R54: local commands make no bus request; a bus command only appends to the log, and what it appends begins with
at most `Pu(Weak)`, then one selection, of `ADDR` once that is written (log entry 8). -/
def Obligations.OnlyBusCommandsUseTheBus : Prop :=
  ∀ (i : Instr) (s t : State), exec i s = .next t →
    (isBusCommand i = false → t.busLog = s.busLog ∧ t.driver = s.driver ∧ t.fresh = s.fresh ∧
      t.strongPuReq = s.strongPuReq ∧ t.sp = s.sp ∧ t.spValid = s.spValid) ∧
    (isBusCommand i = true → ∃ a es,
      t.busLog = s.busLog ++ releaseEntries s.strongPuReq ++ .sel a s.selectAnswer :: es ∧
      (s.operands.isWritten .addr = true → a = s.operands.addr) ∧ (∀ a' r, .sel a' r ∉ es) ∧ .pu .weak ∉ es)

/-- R29, R86: strong pull-up, once requested, stays requested through every step but a bus command or a reset. -/
def Obligations.PullUpLastsUntilTheNextBusCommand : Prop :=
  ∀ (s t : State) (e : HostEvent) (q : List HostEvent), s.host.queue = e :: q → step s = .next t → e ≠ .reset →
    (∀ c i, e = .write 0x00#6 c → decode c = .ok i → isBusCommand i = false) →
    t.strongPuReq = s.strongPuReq ∧ t.busLog = s.busLog

/-- The window frame of every command: a specified window byte outside `mayChange` reads after the command as it read
before (R30 to R35, R46, R141). -/
def Obligations.CommandsLeaveOtherWindowBytesAlone : Prop :=
  ∀ (i : Instr) (s t : State) (off : WinOff), exec i s = .next t → off ∉ mayChange i →
    s.specified (locate off) = true → t.specified (locate off) = true ∧ t.memRead off = s.memRead off

/-! ### The register window -/

/-- R26, R117: the six codes of `ERR`. R25: `STATUS` holds `ERR`, `SP_VALID`, `TEMP_VALID` and `STRONG_PU_REQ`, bits [7:6]
are 0, `ERR` is at most 5, and a write to it changes nothing; at reset all of it is 0. -/
def Obligations.StatusRegisterLayout : Prop :=
  (ErrCode.ok.code = 0#3 ∧ ErrCode.deviceNotFound.code = 1#3 ∧ ErrCode.crcMismatch.code = 2#3 ∧
    ErrCode.malformedScratchpad.code = 3#3 ∧ ErrCode.noValidScratchpad.code = 4#3 ∧ ErrCode.illegalCommand.code = 5#3) ∧
  (∀ s : State,
    let v := s.memRead 0x01#6
    (v.extractLsb' 0 3 = s.err.code ∧ s.err.code.toNat ≤ 5) ∧ v.getLsbD 3 = s.spValid ∧ v.getLsbD 4 = s.tempValid ∧
      v.getLsbD 5 = s.strongPuReq ∧ v.getLsbD 6 = false ∧ v.getLsbD 7 = false) ∧
  (∀ (s : State) (v : Byte), serve (.write 0x01#6 v) s = .next s) ∧
  State.reset.memRead 0x01#6 = 0x00#8

/-- R41, R44, R48: what a host read returns at every offset but that of `STATUS` (StatusRegisterLayout), wherever the spec
gives a value: operand bytes once written, `SP` while it is valid, the other result registers once written. -/
def Obligations.WindowReadsReturnTheRegisters : Prop :=
  ∀ s : State,
    s.memRead 0x00#6 = 0x00#8 ∧
    (∀ off : WinOff, (0x0D ≤ off.toNat ∧ off.toNat ≤ 0x0F) ∨ 0x21 ≤ off.toNat → s.memRead off = 0x00#8) ∧
    s.memRead 0x0B#6 ++ s.memRead 0x0A#6 = s.temp ∧
    (s.spValid = true → ∀ i : Fin 9, s.memRead (BitVec.ofNat 6 (0x18 + i.val)) = s.sp[i]) ∧
    (s.crcCalcSet = true → s.memRead 0x0C#6 = s.crcCalc) ∧
    (s.resByteSet = true → s.memRead 0x07#6 = s.resByte) ∧
    (s.resDegSet = true → s.memRead 0x09#6 ++ s.memRead 0x08#6 = s.resDeg) ∧
    (s.operands.written.argHi = true → s.memRead 0x02#6 = s.operands.argHi) ∧
    (s.operands.written.argLo = true → s.memRead 0x03#6 = s.operands.argLo) ∧
    (s.operands.written.argB = true → s.memRead 0x06#6 = s.operands.argB) ∧
    (∀ k : Fin 2, s.operands.written.argD[k] = true →
      s.memRead (BitVec.ofNat 6 (0x04 + k.val)) = s.operands.argD.extractLsb' (8 * k.val) 8) ∧
    (∀ k : Fin 8, s.operands.written.addr[k] = true →
      s.memRead (BitVec.ofNat 6 (0x10 + k.val)) = s.operands.addr.extractLsb' (8 * k.val) 8)

/-- R46: a host read answers the host with `MemRead` and changes nothing else. -/
def Obligations.HostReadsChangeNoBlockState : Prop :=
  ∀ (s : State) (off : WinOff) (q : List HostEvent), s.host.queue = .read off :: q →
    step s = .next { s with host := { queue := q, reads := s.host.reads ++ [(off, s.memRead off)] } }

/-- R47: a write to a read-only or reserved offset changes no state, and a reserved offset reads 0x00. -/
def Obligations.ReadOnlyAndReservedWritesAreIgnored : Prop :=
  ∀ (s : State) (off : WinOff) (v : Byte) (q : List HostEvent),
    s.host.queue = .write off v :: q →
    off = 0x01#6 ∨ (0x07 ≤ off.toNat ∧ off.toNat ≤ 0x0F) ∨ 0x18 ≤ off.toNat →
    step s = .next { s with host := { s.host with queue := q } } ∧
    ((0x0D ≤ off.toNat ∧ off.toNat ≤ 0x0F) ∨ 0x21 ≤ off.toNat → s.memRead off = 0x00#8)

/-- R37, R41, R46: a write to an operand byte is read back, every other window byte reads as before, and nothing but the
operand registers changes. For a window byte with no specified value R39 and R41 allow any value: that it too reads as before
is the model's choice (log entry 4: the free value depends on the number of reads and the offset alone). -/
def Obligations.OperandByteWriteThenRead : Prop :=
  ∀ (s : State) (off : WinOff) (v : Byte) (q : List HostEvent),
    s.host.queue = .write off v :: q →
    (0x02 ≤ off.toNat ∧ off.toNat ≤ 0x06) ∨ (0x10 ≤ off.toNat ∧ off.toNat ≤ 0x17) →
    ∃ o : OperandRegs,
      step s = .next { s with operands := o, host := { s.host with queue := q } } ∧
      { s with operands := o }.memRead off = v ∧
      ∀ off', off' ≠ off → { s with operands := o }.memRead off' = s.memRead off'

/-- R62, R63: the operands are assembled little-endian: after all bytes of `ADDR` and of `ARG_D` have been written, in
any state, the registers hold those bytes with the lowest offset least significant, both count as written, and SPREAD's
`BusSelect` gets that address unchanged. -/
def Obligations.OperandsAreAssembledLittleEndian : Prop :=
  ∀ (s : State) (a : Fin 8 → Byte) (lo hi : Byte),
    ∃ t, serveAll
        [.write 0x10#6 (a 0), .write 0x11#6 (a 1), .write 0x12#6 (a 2), .write 0x13#6 (a 3), .write 0x14#6 (a 4),
          .write 0x15#6 (a 5), .write 0x16#6 (a 6), .write 0x17#6 (a 7), .write 0x04#6 lo, .write 0x05#6 hi] s =
        .next t ∧
      t.operands.addr = a 7 ++ a 6 ++ a 5 ++ a 4 ++ a 3 ++ a 2 ++ a 1 ++ a 0 ∧
      t.operands.argD = hi ++ lo ∧ t.operands.isWritten .addr = true ∧ t.operands.isWritten .argD = true ∧
      ∃ u, exec .spread t = .next u ∧
        .sel (a 7 ++ a 6 ++ a 5 ++ a 4 ++ a 3 ++ a 2 ++ a 1 ++ a 0) s.selectAnswer ∈ u.busLog

/-- A byte of an operand register, once written, counts as written until reset (R37, R138). -/
def Obligations.OperandsStayWrittenUntilReset : Prop :=
  ∀ (s t : State) (r : OperandReg) (q : List HostEvent) (e : HostEvent), s.host.queue = e :: q → e ≠ .reset →
    step s = .next t → s.operands.isWritten r = true → t.operands.isWritten r = true

/-- R42: a platform access reaches the block exactly inside the 64 bytes at `WINDOW_BASE`. -/
def Obligations.WindowIsSixtyFourBytesAtItsBase : Prop :=
  (∀ n : Nat, n < 64 → windowOffset (Config.windowBase + n) = some (BitVec.ofNat 6 n)) ∧
  (∀ a : Nat, a < Config.windowBase ∨ Config.windowBase + 64 ≤ a → windowOffset a = none)

/-! ### Reset -/

/-- R38, R136: the state after reset, in what the spec gives a value; the written flag of every operand byte is clear. That
`TEMP` reads 0x00, 0x80 rests on the sentinel's number, -32768 (R9 and decision D14; log entry 2). -/
def Obligations.ResetValues : Prop :=
  State.reset.err = .ok ∧ State.reset.spValid = false ∧ State.reset.tempValid = false ∧
  State.reset.strongPuReq = false ∧ State.reset.temp = Config.tempSentinel ∧ State.reset.busLog = [] ∧
  State.reset.faultRec = none ∧ (∀ r, State.reset.operands.isWritten r = false) ∧
  State.reset.operands.written.argHi = false ∧ State.reset.operands.written.argLo = false ∧
  State.reset.operands.written.argB = false ∧ (∀ k : Fin 2, State.reset.operands.written.argD[k] = false) ∧
  (∀ k : Fin 8, State.reset.operands.written.addr[k] = false) ∧
  State.reset.memRead 0x01#6 = 0x00#8 ∧ State.reset.memRead 0x0A#6 = 0x00#8 ∧ State.reset.memRead 0x0B#6 = 0x80#8

/-- R135, R136: the platform's reset, between commands, gives every element of the block its reset value and makes no bus
request; from any state, no operand byte, `SP`, `CRC_CALC`, `RES_BYTE` or `RES_DEG` then has a specified value. That the bus
driver and the host are kept is log entry 10; that the fault record is kept is R40. -/
def Obligations.PlatformResetResetsTheBlock : Prop :=
  ∀ (s : State) (q : List HostEvent), s.host.queue = .reset :: q →
    ∃ t, step s = .next t ∧ t.err = .ok ∧ t.spValid = false ∧ t.tempValid = false ∧ t.strongPuReq = false ∧
      t.temp = Config.tempSentinel ∧ t.busLog = [] ∧ t.faultRec = s.faultRec ∧
      (∀ off : WinOff, t.specified (locate off) = true ↔
        off.toNat ≤ 0x01 ∨ (0x0A ≤ off.toNat ∧ off.toNat ≤ 0x0F ∧ off.toNat ≠ 0x0C) ∨ 0x21 ≤ off.toNat) ∧
      t.driver = s.driver ∧ t.host = { s.host with queue := q }

/-! ### Invariants and isolation -/

/-- `Sound` holds at reset. -/
def Obligations.ResetIsSound : Prop := Sound State.reset

/-- R27, R28, R29, R31, R35, R54, R115: from every sound state a step gives a sound state: `TEMP` is the sentinel exactly
when `TEMP_VALID` = 0, a valid temperature is the decode of the verified scratchpad beside it, a valid scratchpad is what
the most recent bus command received and its CRC verified, the pull-up request is the level last put on the bus, pull-up
entries alternate, and `RES_DEG` stays in its range. -/
def Obligations.StepKeepsSound : Prop := ∀ s t : State, Sound s → step s = .next t → Sound t

/-- R37, R38, R39, R41, R78, R96, R110: what the spec leaves unspecified is never observed. Two states that differ
only in operand bytes not written since reset, in `SP` while `SP_VALID` = 0, and in `CRC_CALC`, `RES_BYTE` and `RES_DEG`
before their first write, take steps that agree: the same answers to the host, the same bus traffic, the same results. So
no step shows the zeros of log entry 5. That a read of an unspecified byte gets the same answer in both is the model's
choice (log entry 4: the free value depends on the number of reads and the offset alone), and so is that a command gets the
same from an unwritten operand byte in both (log entry 8). -/
def Obligations.UnspecifiedResultsAreNeverObserved : Prop :=
  ∀ s t : State, hideUnspecified s = hideUnspecified t → OutcomesAgree (step s) (step t)

/-! ### Host sequences -/

/-- R70, R123: READTEMP gives the host the same three bytes, STATUS 0x04 and the sentinel, when selection fails and when
the CRC fails. The sentinel's bytes 0x00, 0x80 rest on its number, -32768 (R9 and decision D14; log entry 2). -/
def Obligations.ReadtempFailuresLookAlike : Prop :=
  ∀ (s : State) (a : Int), (Pseudo.readtemp a).wellFormed = true →
    (s.selectAnswer = .notFound ∨ crcOf Config.params (receivedBytes s) ≠ (receivedBytes s)[8]) →
    ∃ t, serveAll (Pseudo.readtemp a).events s = .next t ∧ t.tempValid = false ∧
      t.host.reads = s.host.reads ++ [(0x01#6, 0x04#8), (0x0A#6, 0x00#8), (0x0B#6, 0x80#8)]

/-- R70, R109: READTEMP of a scratchpad that verifies and decodes gives the host STATUS 0x18 and the temperature, low
byte first. -/
def Obligations.ReadtempDeliversTheTemperature : Prop :=
  ∀ (s : State) (a : Int), (Pseudo.readtemp a).wellFormed = true → s.selectAnswer = .found →
    crcOf Config.params (receivedBytes s) = (receivedBytes s)[8] → (receivedBytes s)[7] ≠ 0x00#8 →
    ∃ t v, serveAll (Pseudo.readtemp a).events s = .next t ∧ decodeTemperature (receivedBytes s) = .temperature v ∧
      t.temp = v ∧ t.host.reads = s.host.reads ++ [(0x01#6, 0x18#8), (0x0A#6, byteOf v 0), (0x0B#6, byteOf v 1)]

/-- R71: SetThresholds sends the sign-magnitude bytes of both thresholds to the device, high then low. -/
def Obligations.SetThresholdsSendsBothThresholds : Prop :=
  ∀ (s : State) (a h l : Int), WinReg.addr.fits a = true → -127 ≤ h → h ≤ 127 → -127 ≤ l →
    l ≤ 127 → s.selectAnswer = .found →
    ∃ t bh bl, setThresholds a h l s = .next t ∧ t.err = .ok ∧ signMagnitude bh = h ∧ signMagnitude bl = l ∧
      t.busLog = s.busLog ++ releaseEntries s.strongPuReq ++
        [.sel (BitVec.ofInt 64 a) .found, .wr Config.params.opWriteSp, .wr bh, .wr bl]

/-- R71, R94 (byte 3 as the low threshold is decision D10): GetThresholds gives the degrees of `SP[2]` and `SP[3]`, or
the error SPREAD raised. -/
def Obligations.GetThresholdsReadsBothThresholds : Prop :=
  ∀ (s : State) (a : Int), WinReg.addr.fits a = true →
    (s.selectAnswer = .notFound → ∃ t, getThresholds a s = .next (t, .failed 1#3)) ∧
    (s.selectAnswer = .found → crcOf Config.params (receivedBytes s) ≠ (receivedBytes s)[8] →
      ∃ t, getThresholds a s = .next (t, .failed 2#3)) ∧
    (s.selectAnswer = .found → crcOf Config.params (receivedBytes s) = (receivedBytes s)[8] →
      ∃ t, getThresholds a s =
        .next (t, .thresholds (signMagnitude (receivedBytes s)[2]) (signMagnitude (receivedBytes s)[3])))

/-! ### Commands on operands that were never written, and the fault record -/

/-- R38, R128 ("In hardware the register holds an unspecified value and the command would run with it"): a command that reads
an operand register not written since reset runs. It answers what it would answer if the host had written some bytes
where it wrote none, with the operand registers as they were and the fault recorded. That the machine runs it, while R128
keeps its own model from running it, is the model's choice (log entry 8); the bytes stand for any values. -/
def Obligations.CommandsRunOnUnwrittenOperands : Prop :=
  ∀ (i : Instr) (s : State),
    ∃ (o : OperandRegs) (t : State), exec i { s with operands := o } = .next t ∧
      exec i s = .next { t with operands := s.operands, faultRec := (s.markUnwritten i).faultRec } ∧
      (∀ r, o.isWritten r = true) ∧
      (s.operands.written.argHi = true → o.argHi = s.operands.argHi) ∧
      (s.operands.written.argLo = true → o.argLo = s.operands.argLo) ∧
      (s.operands.written.argB = true → o.argB = s.operands.argB) ∧
      (∀ k : Fin 2, s.operands.written.argD[k] = true →
        o.argD.extractLsb' (8 * k.val) 8 = s.operands.argD.extractLsb' (8 * k.val) 8) ∧
      (∀ k : Fin 8, s.operands.written.addr[k] = true →
        o.addr.extractLsb' (8 * k.val) 8 = s.operands.addr.extractLsb' (8 * k.val) 8)

/-- R37, R40, R128: the fault record after any command. It is as before when every operand was written; otherwise it names
the command and an unwritten operand of it, unless an earlier record stands. -/
def Obligations.FaultRecordNamesAnUnwrittenOperand : Prop :=
  ∀ (i : Instr) (s t : State), exec i s = .next t →
    (OperandsReady i s → t.faultRec = s.faultRec) ∧
    (¬ OperandsReady i s → s.faultRec = none →
      ∃ r ∈ operandsOf i, s.operands.isWritten r = false ∧ t.faultRec = some (.unwrittenOperand i r))

/-- R40: no step clears the fault record, a reset neither. -/
def Obligations.FaultRecordIsSticky : Prop :=
  ∀ (s t : State) (f : ModelFault), step s = .next t → s.faultRec = some f → t.faultRec = some f

/-- R40, R128: the strict reading and the machine agree as long as no fault is recorded: a strict step to a state with no
record is the machine's step, and from a state with no record every step of the machine that records nothing is a strict
step. -/
def Obligations.StrictStepsAreTheMachinesSteps : Prop :=
  ∀ s t : State, t.faultRec = none → (strictStep s = some (.next t) ↔ s.faultRec = none ∧ step s = .next t)

/-- R6, R49, R68: from every state every command completes. -/
def Obligations.EveryCommandCompletes : Prop := ∀ (i : Instr) (s : State), ∃ t, exec i s = .next t
end

