-- ==== Sys2Proof/Laws/Bytes.lean ====
section
/-! SUPPORT. Byte lanes: a byte written to a register is read back, and the other bytes keep their values (spec
20_memory.md R44, R46); filling the bytes not yet written (10_state.md R37). -/

namespace Sys2Proof.Machine

theorem getLsbD_byteOf {w : Nat} (v : BitVec w) (k j : Nat) :
    (byteOf v k).getLsbD j = (decide (j < 8) && v.getLsbD (8 * k + j)) := by
  simp [byteOf, BitVec.getLsbD_extractLsb']

theorem getLsbD_putByte {w : Nat} (v : BitVec w) (k : Nat) (b : Byte) (j : Nat) (hj : j < w) :
    (putByte v k b).getLsbD j = if 8 * k ≤ j ∧ j < 8 * k + 8 then b.getLsbD (j - 8 * k) else v.getLsbD j := by
  have hFF : ∀ n : Nat, (0xFF#8).getLsbD n = decide (n < 8) := by
    intro n
    by_cases hn : n < 8
    · interval_cases n <;> decide
    · simp only [decide_eq_false hn]
      exact BitVec.getLsbD_of_ge _ _ (by omega)
  simp only [putByte, BitVec.getLsbD_or, BitVec.getLsbD_and, BitVec.getLsbD_not, BitVec.getLsbD_shiftLeft,
    BitVec.getLsbD_setWidth, hFF]
  by_cases h1 : 8 * k ≤ j
  · by_cases h2 : j < 8 * k + 8
    · have : j - 8 * k < 8 := by omega
      have h3 : j - 8 * k < w := by omega
      have h4 : ¬ j < 8 * k := by omega
      simp [h1, h2, hj, this, h3, h4]
    · have : ¬ j - 8 * k < 8 := by omega
      have hb : b.getLsbD (j - 8 * k) = false := BitVec.getLsbD_of_ge _ _ (by omega)
      simp [h1, h2, hj, this, hb]
  · simp [h1, hj, Nat.lt_of_not_le h1]

theorem byteOf_putByte_same {w : Nat} (v : BitVec w) (k : Nat) (b : Byte) (h : 8 * k + 8 ≤ w) :
    byteOf (putByte v k b) k = b := by
  apply BitVec.eq_of_getLsbD_eq
  intro i hi
  rw [getLsbD_byteOf, getLsbD_putByte _ _ _ _ (by omega)]
  simp [hi]

theorem byteOf_putByte_other {w : Nat} (v : BitVec w) (k m : Nat) (b : Byte) (h : m ≠ k) (hm : 8 * m + 8 ≤ w) :
    byteOf (putByte v k b) m = byteOf v m := by
  apply BitVec.eq_of_getLsbD_eq
  intro i hi
  rw [getLsbD_byteOf, getLsbD_byteOf, getLsbD_putByte _ _ _ _ (by omega)]
  have : ¬ (8 * k ≤ 8 * m + i ∧ 8 * m + i < 8 * k + 8) := by omega
  simp [hi, this]

/-- Two registers with equal bytes are equal: `n` bytes make the register. -/
theorem eq_of_byteOf_eq {n : Nat} {u v : BitVec (8 * n)} (h : ∀ k < n, byteOf u k = byteOf v k) : u = v := by
  apply BitVec.eq_of_getLsbD_eq
  intro i hi
  have := congrArg (fun b : Byte => b.getLsbD (i % 8)) (h (i / 8) (by omega))
  simp only [getLsbD_byteOf] at this
  have e : 8 * (i / 8) + i % 8 = i := by omega
  simpa [e, Nat.mod_lt] using this

/-- Filling keeps a byte that was written and replaces one that was not. -/
theorem byteOf_fillBytes {n w : Nat} (f : Vector Bool n) (g : Nat → Byte) (v : BitVec w) (m : Fin n) (hw : 8 * n ≤ w) :
    byteOf (fillBytes f g v) m.val = bif f[m] then byteOf v m.val else g m.val := by
  have key : ∀ (l : List (Fin n)) (u : BitVec w),
      byteOf (l.foldl (fun v k => bif f[k] then v else putByte v k.val (g k.val)) u) m.val =
        if m ∈ l ∧ f[m] = false then g m.val else byteOf u m.val := by
    intro l
    induction l with
    | nil => simp
    | cons k l ih =>
      intro u
      rw [List.foldl_cons, ih]
      by_cases hk : m = k
      · subst hk
        cases hf : f[m]
        · simp [byteOf_putByte_same _ _ _ (show 8 * m.val + 8 ≤ w by omega)]
        · simp
      · have hv : m.val ≠ k.val := fun h => hk (Fin.ext h)
        cases hf : f[k]
        · simp [hk, byteOf_putByte_other _ _ _ _ hv (show 8 * m.val + 8 ≤ w by omega)]
        · simp [hk]
  rw [fillBytes, key]
  cases hf : f[m] <;> simp

/-- A register all of whose bytes were written is not changed by filling. -/
theorem fillBytes_of_written {n : Nat} {f : Vector Bool n} (g : Nat → Byte) (v : BitVec (8 * n)) (h : f.toList.all id = true) :
    fillBytes f g v = v := by
  apply eq_of_byteOf_eq
  intro k hk
  have hf : f[k] = true := by
    simp only [List.all_eq_true, id_eq] at h
    exact h _ (by simp [Vector.mem_toList_iff])
  have := byteOf_fillBytes f g v ⟨k, hk⟩ (Nat.le_refl _)
  simpa [hf] using this

/-- Writing a byte and filling agree in either order. -/
theorem fillBytes_putByte {n : Nat} (f : Vector Bool n) (g : Nat → Byte) (v : BitVec (8 * n)) (k : Fin n) (b : Byte) :
    fillBytes (f.set k true) g (putByte v k b) = putByte (fillBytes f g v) k b := by
  apply eq_of_byteOf_eq
  intro m hm
  rw [byteOf_fillBytes _ _ _ ⟨m, hm⟩ (Nat.le_refl _)]
  by_cases h : m = k.val
  · subst h
    simp [byteOf_putByte_same _ _ _ (show 8 * k.val + 8 ≤ 8 * n by omega)]
  · rw [byteOf_putByte_other _ _ _ _ h (by omega), byteOf_putByte_other _ _ _ _ h (by omega),
      byteOf_fillBytes f g v ⟨m, hm⟩ (Nat.le_refl _)]
    simp [Ne.symm h]

end Sys2Proof.Machine
end

