-- ==== Sys2Proof/Laws/State.lean ====
section
/-! SUPPORT. One lemma per field per update of the state, so that no later proof unfolds a record update. -/

namespace Sys2Proof.Machine

open Sys2Proof.Safety

/-! ### report -/

@[simp] theorem report_operands (e : ErrCode) (s : State) : (s.report e).operands = s.operands := rfl
@[simp] theorem report_err (e : ErrCode) (s : State) : (s.report e).err = e := rfl
@[simp] theorem report_spValid (e : ErrCode) (s : State) : (s.report e).spValid = s.spValid := rfl
@[simp] theorem report_tempValid (e : ErrCode) (s : State) : (s.report e).tempValid = s.tempValid := rfl
@[simp] theorem report_strongPuReq (e : ErrCode) (s : State) : (s.report e).strongPuReq = s.strongPuReq := rfl
@[simp] theorem report_sp (e : ErrCode) (s : State) : (s.report e).sp = s.sp := rfl
@[simp] theorem report_crcCalc (e : ErrCode) (s : State) : (s.report e).crcCalc = s.crcCalc := rfl
@[simp] theorem report_crcCalcSet (e : ErrCode) (s : State) : (s.report e).crcCalcSet = s.crcCalcSet := rfl
@[simp] theorem report_temp (e : ErrCode) (s : State) : (s.report e).temp = s.temp := rfl
@[simp] theorem report_resByte (e : ErrCode) (s : State) : (s.report e).resByte = s.resByte := rfl
@[simp] theorem report_resByteSet (e : ErrCode) (s : State) : (s.report e).resByteSet = s.resByteSet := rfl
@[simp] theorem report_resDeg (e : ErrCode) (s : State) : (s.report e).resDeg = s.resDeg := rfl
@[simp] theorem report_resDegSet (e : ErrCode) (s : State) : (s.report e).resDegSet = s.resDegSet := rfl
@[simp] theorem report_busLog (e : ErrCode) (s : State) : (s.report e).busLog = s.busLog := rfl
@[simp] theorem report_faultRec (e : ErrCode) (s : State) : (s.report e).faultRec = s.faultRec := rfl
@[simp] theorem report_driver (e : ErrCode) (s : State) : (s.report e).driver = s.driver := rfl
@[simp] theorem report_host (e : ErrCode) (s : State) : (s.report e).host = s.host := rfl
@[simp] theorem report_fresh (e : ErrCode) (s : State) : (s.report e).fresh = s.fresh := rfl

/-! ### recordFault -/

@[simp] theorem recordFault_operands (i : Instr) (r : OperandReg) (s : State) : (s.recordFault i r).operands = s.operands := rfl
@[simp] theorem recordFault_err (i : Instr) (r : OperandReg) (s : State) : (s.recordFault i r).err = s.err := rfl
@[simp] theorem recordFault_spValid (i : Instr) (r : OperandReg) (s : State) : (s.recordFault i r).spValid = s.spValid := rfl
@[simp] theorem recordFault_tempValid (i : Instr) (r : OperandReg) (s : State) : (s.recordFault i r).tempValid = s.tempValid := rfl
@[simp] theorem recordFault_strongPuReq (i : Instr) (r : OperandReg) (s : State) : (s.recordFault i r).strongPuReq = s.strongPuReq := rfl
@[simp] theorem recordFault_sp (i : Instr) (r : OperandReg) (s : State) : (s.recordFault i r).sp = s.sp := rfl
@[simp] theorem recordFault_crcCalc (i : Instr) (r : OperandReg) (s : State) : (s.recordFault i r).crcCalc = s.crcCalc := rfl
@[simp] theorem recordFault_crcCalcSet (i : Instr) (r : OperandReg) (s : State) : (s.recordFault i r).crcCalcSet = s.crcCalcSet := rfl
@[simp] theorem recordFault_temp (i : Instr) (r : OperandReg) (s : State) : (s.recordFault i r).temp = s.temp := rfl
@[simp] theorem recordFault_resByte (i : Instr) (r : OperandReg) (s : State) : (s.recordFault i r).resByte = s.resByte := rfl
@[simp] theorem recordFault_resByteSet (i : Instr) (r : OperandReg) (s : State) : (s.recordFault i r).resByteSet = s.resByteSet := rfl
@[simp] theorem recordFault_resDeg (i : Instr) (r : OperandReg) (s : State) : (s.recordFault i r).resDeg = s.resDeg := rfl
@[simp] theorem recordFault_resDegSet (i : Instr) (r : OperandReg) (s : State) : (s.recordFault i r).resDegSet = s.resDegSet := rfl
@[simp] theorem recordFault_busLog (i : Instr) (r : OperandReg) (s : State) : (s.recordFault i r).busLog = s.busLog := rfl
@[simp] theorem recordFault_faultRec (i : Instr) (r : OperandReg) (s : State) : (s.recordFault i r).faultRec = s.faultRec.or (some (.unwrittenOperand i r)) := rfl
@[simp] theorem recordFault_driver (i : Instr) (r : OperandReg) (s : State) : (s.recordFault i r).driver = s.driver := rfl
@[simp] theorem recordFault_host (i : Instr) (r : OperandReg) (s : State) : (s.recordFault i r).host = s.host := rfl
@[simp] theorem recordFault_fresh (i : Instr) (r : OperandReg) (s : State) : (s.recordFault i r).fresh = s.fresh := rfl

/-! ### markUnwritten: nothing but the fault record changes (R128) -/

@[simp] theorem markUnwritten_operands (i : Instr) (s : State) : (s.markUnwritten i).operands = s.operands := by
  unfold State.markUnwritten; split <;> rfl

@[simp] theorem markUnwritten_err (i : Instr) (s : State) : (s.markUnwritten i).err = s.err := by
  unfold State.markUnwritten; split <;> rfl

@[simp] theorem markUnwritten_spValid (i : Instr) (s : State) : (s.markUnwritten i).spValid = s.spValid := by
  unfold State.markUnwritten; split <;> rfl

@[simp] theorem markUnwritten_tempValid (i : Instr) (s : State) : (s.markUnwritten i).tempValid = s.tempValid := by
  unfold State.markUnwritten; split <;> rfl

@[simp] theorem markUnwritten_strongPuReq (i : Instr) (s : State) : (s.markUnwritten i).strongPuReq = s.strongPuReq := by
  unfold State.markUnwritten; split <;> rfl

@[simp] theorem markUnwritten_sp (i : Instr) (s : State) : (s.markUnwritten i).sp = s.sp := by
  unfold State.markUnwritten; split <;> rfl

@[simp] theorem markUnwritten_crcCalc (i : Instr) (s : State) : (s.markUnwritten i).crcCalc = s.crcCalc := by
  unfold State.markUnwritten; split <;> rfl

@[simp] theorem markUnwritten_crcCalcSet (i : Instr) (s : State) : (s.markUnwritten i).crcCalcSet = s.crcCalcSet := by
  unfold State.markUnwritten; split <;> rfl

@[simp] theorem markUnwritten_temp (i : Instr) (s : State) : (s.markUnwritten i).temp = s.temp := by
  unfold State.markUnwritten; split <;> rfl

@[simp] theorem markUnwritten_resByte (i : Instr) (s : State) : (s.markUnwritten i).resByte = s.resByte := by
  unfold State.markUnwritten; split <;> rfl

@[simp] theorem markUnwritten_resByteSet (i : Instr) (s : State) : (s.markUnwritten i).resByteSet = s.resByteSet := by
  unfold State.markUnwritten; split <;> rfl

@[simp] theorem markUnwritten_resDeg (i : Instr) (s : State) : (s.markUnwritten i).resDeg = s.resDeg := by
  unfold State.markUnwritten; split <;> rfl

@[simp] theorem markUnwritten_resDegSet (i : Instr) (s : State) : (s.markUnwritten i).resDegSet = s.resDegSet := by
  unfold State.markUnwritten; split <;> rfl

@[simp] theorem markUnwritten_busLog (i : Instr) (s : State) : (s.markUnwritten i).busLog = s.busLog := by
  unfold State.markUnwritten; split <;> rfl

@[simp] theorem markUnwritten_driver (i : Instr) (s : State) : (s.markUnwritten i).driver = s.driver := by
  unfold State.markUnwritten; split <;> rfl

@[simp] theorem markUnwritten_host (i : Instr) (s : State) : (s.markUnwritten i).host = s.host := by
  unfold State.markUnwritten; split <;> rfl

@[simp] theorem markUnwritten_fresh (i : Instr) (s : State) : (s.markUnwritten i).fresh = s.fresh := by
  unfold State.markUnwritten; split <;> rfl

/-- No record is cleared by reading operands (R40). -/
theorem markUnwritten_faultRec_of_some {f : ModelFault} (i : Instr) {s : State} (h : s.faultRec = some f) :
    (s.markUnwritten i).faultRec = some f := by
  unfold State.markUnwritten; split <;> simp [h]

/-! ### logEvent -/

@[simp] theorem logEvent_operands (e : BusEvent) (s : State) : (s.logEvent e).operands = s.operands := rfl
@[simp] theorem logEvent_err (e : BusEvent) (s : State) : (s.logEvent e).err = s.err := rfl
@[simp] theorem logEvent_spValid (e : BusEvent) (s : State) : (s.logEvent e).spValid = s.spValid := rfl
@[simp] theorem logEvent_tempValid (e : BusEvent) (s : State) : (s.logEvent e).tempValid = s.tempValid := rfl
@[simp] theorem logEvent_strongPuReq (e : BusEvent) (s : State) : (s.logEvent e).strongPuReq = s.strongPuReq := rfl
@[simp] theorem logEvent_sp (e : BusEvent) (s : State) : (s.logEvent e).sp = s.sp := rfl
@[simp] theorem logEvent_crcCalc (e : BusEvent) (s : State) : (s.logEvent e).crcCalc = s.crcCalc := rfl
@[simp] theorem logEvent_crcCalcSet (e : BusEvent) (s : State) : (s.logEvent e).crcCalcSet = s.crcCalcSet := rfl
@[simp] theorem logEvent_temp (e : BusEvent) (s : State) : (s.logEvent e).temp = s.temp := rfl
@[simp] theorem logEvent_resByte (e : BusEvent) (s : State) : (s.logEvent e).resByte = s.resByte := rfl
@[simp] theorem logEvent_resByteSet (e : BusEvent) (s : State) : (s.logEvent e).resByteSet = s.resByteSet := rfl
@[simp] theorem logEvent_resDeg (e : BusEvent) (s : State) : (s.logEvent e).resDeg = s.resDeg := rfl
@[simp] theorem logEvent_resDegSet (e : BusEvent) (s : State) : (s.logEvent e).resDegSet = s.resDegSet := rfl
@[simp] theorem logEvent_busLog (e : BusEvent) (s : State) : (s.logEvent e).busLog = s.busLog ++ [e] := rfl
@[simp] theorem logEvent_faultRec (e : BusEvent) (s : State) : (s.logEvent e).faultRec = s.faultRec := rfl
@[simp] theorem logEvent_driver (e : BusEvent) (s : State) : (s.logEvent e).driver = s.driver := rfl
@[simp] theorem logEvent_host (e : BusEvent) (s : State) : (s.logEvent e).host = s.host := rfl
@[simp] theorem logEvent_fresh (e : BusEvent) (s : State) : (s.logEvent e).fresh = s.fresh := rfl

/-! ### tookSelect -/

@[simp] theorem tookSelect_operands (s : State) : (s.tookSelect).operands = s.operands := rfl
@[simp] theorem tookSelect_err (s : State) : (s.tookSelect).err = s.err := rfl
@[simp] theorem tookSelect_spValid (s : State) : (s.tookSelect).spValid = s.spValid := rfl
@[simp] theorem tookSelect_tempValid (s : State) : (s.tookSelect).tempValid = s.tempValid := rfl
@[simp] theorem tookSelect_strongPuReq (s : State) : (s.tookSelect).strongPuReq = s.strongPuReq := rfl
@[simp] theorem tookSelect_sp (s : State) : (s.tookSelect).sp = s.sp := rfl
@[simp] theorem tookSelect_crcCalc (s : State) : (s.tookSelect).crcCalc = s.crcCalc := rfl
@[simp] theorem tookSelect_crcCalcSet (s : State) : (s.tookSelect).crcCalcSet = s.crcCalcSet := rfl
@[simp] theorem tookSelect_temp (s : State) : (s.tookSelect).temp = s.temp := rfl
@[simp] theorem tookSelect_resByte (s : State) : (s.tookSelect).resByte = s.resByte := rfl
@[simp] theorem tookSelect_resByteSet (s : State) : (s.tookSelect).resByteSet = s.resByteSet := rfl
@[simp] theorem tookSelect_resDeg (s : State) : (s.tookSelect).resDeg = s.resDeg := rfl
@[simp] theorem tookSelect_resDegSet (s : State) : (s.tookSelect).resDegSet = s.resDegSet := rfl
@[simp] theorem tookSelect_busLog (s : State) : (s.tookSelect).busLog = s.busLog := rfl
@[simp] theorem tookSelect_faultRec (s : State) : (s.tookSelect).faultRec = s.faultRec := rfl
@[simp] theorem tookSelect_driver (s : State) : (s.tookSelect).driver = { s.driver with selects := s.driver.selects.tail } := rfl
@[simp] theorem tookSelect_host (s : State) : (s.tookSelect).host = s.host := rfl
@[simp] theorem tookSelect_fresh (s : State) : (s.tookSelect).fresh = s.fresh + 1 := rfl

/-! ### tookByte -/

@[simp] theorem tookByte_operands (s : State) : (s.tookByte).operands = s.operands := rfl
@[simp] theorem tookByte_err (s : State) : (s.tookByte).err = s.err := rfl
@[simp] theorem tookByte_spValid (s : State) : (s.tookByte).spValid = s.spValid := rfl
@[simp] theorem tookByte_tempValid (s : State) : (s.tookByte).tempValid = s.tempValid := rfl
@[simp] theorem tookByte_strongPuReq (s : State) : (s.tookByte).strongPuReq = s.strongPuReq := rfl
@[simp] theorem tookByte_sp (s : State) : (s.tookByte).sp = s.sp := rfl
@[simp] theorem tookByte_crcCalc (s : State) : (s.tookByte).crcCalc = s.crcCalc := rfl
@[simp] theorem tookByte_crcCalcSet (s : State) : (s.tookByte).crcCalcSet = s.crcCalcSet := rfl
@[simp] theorem tookByte_temp (s : State) : (s.tookByte).temp = s.temp := rfl
@[simp] theorem tookByte_resByte (s : State) : (s.tookByte).resByte = s.resByte := rfl
@[simp] theorem tookByte_resByteSet (s : State) : (s.tookByte).resByteSet = s.resByteSet := rfl
@[simp] theorem tookByte_resDeg (s : State) : (s.tookByte).resDeg = s.resDeg := rfl
@[simp] theorem tookByte_resDegSet (s : State) : (s.tookByte).resDegSet = s.resDegSet := rfl
@[simp] theorem tookByte_busLog (s : State) : (s.tookByte).busLog = s.busLog := rfl
@[simp] theorem tookByte_faultRec (s : State) : (s.tookByte).faultRec = s.faultRec := rfl
@[simp] theorem tookByte_driver (s : State) : (s.tookByte).driver = { s.driver with bytes := s.driver.bytes.tail } := rfl
@[simp] theorem tookByte_host (s : State) : (s.tookByte).host = s.host := rfl
@[simp] theorem tookByte_fresh (s : State) : (s.tookByte).fresh = s.fresh + 1 := rfl

/-! ### invalidate -/

@[simp] theorem invalidate_operands (s : State) : (s.invalidate).operands = s.operands := rfl
@[simp] theorem invalidate_err (s : State) : (s.invalidate).err = s.err := rfl
@[simp] theorem invalidate_spValid (s : State) : (s.invalidate).spValid = false := rfl
@[simp] theorem invalidate_tempValid (s : State) : (s.invalidate).tempValid = false := rfl
@[simp] theorem invalidate_strongPuReq (s : State) : (s.invalidate).strongPuReq = s.strongPuReq := rfl
@[simp] theorem invalidate_sp (s : State) : (s.invalidate).sp = s.sp := rfl
@[simp] theorem invalidate_crcCalc (s : State) : (s.invalidate).crcCalc = s.crcCalc := rfl
@[simp] theorem invalidate_crcCalcSet (s : State) : (s.invalidate).crcCalcSet = s.crcCalcSet := rfl
@[simp] theorem invalidate_temp (s : State) : (s.invalidate).temp = Config.tempSentinel := rfl
@[simp] theorem invalidate_resByte (s : State) : (s.invalidate).resByte = s.resByte := rfl
@[simp] theorem invalidate_resByteSet (s : State) : (s.invalidate).resByteSet = s.resByteSet := rfl
@[simp] theorem invalidate_resDeg (s : State) : (s.invalidate).resDeg = s.resDeg := rfl
@[simp] theorem invalidate_resDegSet (s : State) : (s.invalidate).resDegSet = s.resDegSet := rfl
@[simp] theorem invalidate_busLog (s : State) : (s.invalidate).busLog = s.busLog := rfl
@[simp] theorem invalidate_faultRec (s : State) : (s.invalidate).faultRec = s.faultRec := rfl
@[simp] theorem invalidate_driver (s : State) : (s.invalidate).driver = s.driver := rfl
@[simp] theorem invalidate_host (s : State) : (s.invalidate).host = s.host := rfl
@[simp] theorem invalidate_fresh (s : State) : (s.invalidate).fresh = s.fresh := rfl

/-! ### decodeFailed -/

@[simp] theorem decodeFailed_operands (e : ErrCode) (s : State) : (s.decodeFailed e).operands = s.operands := rfl
@[simp] theorem decodeFailed_err (e : ErrCode) (s : State) : (s.decodeFailed e).err = e := rfl
@[simp] theorem decodeFailed_spValid (e : ErrCode) (s : State) : (s.decodeFailed e).spValid = s.spValid := rfl
@[simp] theorem decodeFailed_tempValid (e : ErrCode) (s : State) : (s.decodeFailed e).tempValid = false := rfl
@[simp] theorem decodeFailed_strongPuReq (e : ErrCode) (s : State) : (s.decodeFailed e).strongPuReq = s.strongPuReq := rfl
@[simp] theorem decodeFailed_sp (e : ErrCode) (s : State) : (s.decodeFailed e).sp = s.sp := rfl
@[simp] theorem decodeFailed_crcCalc (e : ErrCode) (s : State) : (s.decodeFailed e).crcCalc = s.crcCalc := rfl
@[simp] theorem decodeFailed_crcCalcSet (e : ErrCode) (s : State) : (s.decodeFailed e).crcCalcSet = s.crcCalcSet := rfl
@[simp] theorem decodeFailed_temp (e : ErrCode) (s : State) : (s.decodeFailed e).temp = Config.tempSentinel := rfl
@[simp] theorem decodeFailed_resByte (e : ErrCode) (s : State) : (s.decodeFailed e).resByte = s.resByte := rfl
@[simp] theorem decodeFailed_resByteSet (e : ErrCode) (s : State) : (s.decodeFailed e).resByteSet = s.resByteSet := rfl
@[simp] theorem decodeFailed_resDeg (e : ErrCode) (s : State) : (s.decodeFailed e).resDeg = s.resDeg := rfl
@[simp] theorem decodeFailed_resDegSet (e : ErrCode) (s : State) : (s.decodeFailed e).resDegSet = s.resDegSet := rfl
@[simp] theorem decodeFailed_busLog (e : ErrCode) (s : State) : (s.decodeFailed e).busLog = s.busLog := rfl
@[simp] theorem decodeFailed_faultRec (e : ErrCode) (s : State) : (s.decodeFailed e).faultRec = s.faultRec := rfl
@[simp] theorem decodeFailed_driver (e : ErrCode) (s : State) : (s.decodeFailed e).driver = s.driver := rfl
@[simp] theorem decodeFailed_host (e : ErrCode) (s : State) : (s.decodeFailed e).host = s.host := rfl
@[simp] theorem decodeFailed_fresh (e : ErrCode) (s : State) : (s.decodeFailed e).fresh = s.fresh := rfl

/-! ### decodeOk -/

@[simp] theorem decodeOk_operands (t : S16) (s : State) : (s.decodeOk t).operands = s.operands := rfl
@[simp] theorem decodeOk_err (t : S16) (s : State) : (s.decodeOk t).err = .ok := rfl
@[simp] theorem decodeOk_spValid (t : S16) (s : State) : (s.decodeOk t).spValid = s.spValid := rfl
@[simp] theorem decodeOk_tempValid (t : S16) (s : State) : (s.decodeOk t).tempValid = true := rfl
@[simp] theorem decodeOk_strongPuReq (t : S16) (s : State) : (s.decodeOk t).strongPuReq = s.strongPuReq := rfl
@[simp] theorem decodeOk_sp (t : S16) (s : State) : (s.decodeOk t).sp = s.sp := rfl
@[simp] theorem decodeOk_crcCalc (t : S16) (s : State) : (s.decodeOk t).crcCalc = s.crcCalc := rfl
@[simp] theorem decodeOk_crcCalcSet (t : S16) (s : State) : (s.decodeOk t).crcCalcSet = s.crcCalcSet := rfl
@[simp] theorem decodeOk_temp (t : S16) (s : State) : (s.decodeOk t).temp = t := rfl
@[simp] theorem decodeOk_resByte (t : S16) (s : State) : (s.decodeOk t).resByte = s.resByte := rfl
@[simp] theorem decodeOk_resByteSet (t : S16) (s : State) : (s.decodeOk t).resByteSet = s.resByteSet := rfl
@[simp] theorem decodeOk_resDeg (t : S16) (s : State) : (s.decodeOk t).resDeg = s.resDeg := rfl
@[simp] theorem decodeOk_resDegSet (t : S16) (s : State) : (s.decodeOk t).resDegSet = s.resDegSet := rfl
@[simp] theorem decodeOk_busLog (t : S16) (s : State) : (s.decodeOk t).busLog = s.busLog := rfl
@[simp] theorem decodeOk_faultRec (t : S16) (s : State) : (s.decodeOk t).faultRec = s.faultRec := rfl
@[simp] theorem decodeOk_driver (t : S16) (s : State) : (s.decodeOk t).driver = s.driver := rfl
@[simp] theorem decodeOk_host (t : S16) (s : State) : (s.decodeOk t).host = s.host := rfl
@[simp] theorem decodeOk_fresh (t : S16) (s : State) : (s.decodeOk t).fresh = s.fresh := rfl

/-! ### withQueue -/

@[simp] theorem withQueue_operands (q : List HostEvent) (s : State) : (s.withQueue q).operands = s.operands := rfl
@[simp] theorem withQueue_err (q : List HostEvent) (s : State) : (s.withQueue q).err = s.err := rfl
@[simp] theorem withQueue_spValid (q : List HostEvent) (s : State) : (s.withQueue q).spValid = s.spValid := rfl
@[simp] theorem withQueue_tempValid (q : List HostEvent) (s : State) : (s.withQueue q).tempValid = s.tempValid := rfl
@[simp] theorem withQueue_strongPuReq (q : List HostEvent) (s : State) : (s.withQueue q).strongPuReq = s.strongPuReq := rfl
@[simp] theorem withQueue_sp (q : List HostEvent) (s : State) : (s.withQueue q).sp = s.sp := rfl
@[simp] theorem withQueue_crcCalc (q : List HostEvent) (s : State) : (s.withQueue q).crcCalc = s.crcCalc := rfl
@[simp] theorem withQueue_crcCalcSet (q : List HostEvent) (s : State) : (s.withQueue q).crcCalcSet = s.crcCalcSet := rfl
@[simp] theorem withQueue_temp (q : List HostEvent) (s : State) : (s.withQueue q).temp = s.temp := rfl
@[simp] theorem withQueue_resByte (q : List HostEvent) (s : State) : (s.withQueue q).resByte = s.resByte := rfl
@[simp] theorem withQueue_resByteSet (q : List HostEvent) (s : State) : (s.withQueue q).resByteSet = s.resByteSet := rfl
@[simp] theorem withQueue_resDeg (q : List HostEvent) (s : State) : (s.withQueue q).resDeg = s.resDeg := rfl
@[simp] theorem withQueue_resDegSet (q : List HostEvent) (s : State) : (s.withQueue q).resDegSet = s.resDegSet := rfl
@[simp] theorem withQueue_busLog (q : List HostEvent) (s : State) : (s.withQueue q).busLog = s.busLog := rfl
@[simp] theorem withQueue_faultRec (q : List HostEvent) (s : State) : (s.withQueue q).faultRec = s.faultRec := rfl
@[simp] theorem withQueue_driver (q : List HostEvent) (s : State) : (s.withQueue q).driver = s.driver := rfl
@[simp] theorem withQueue_host (q : List HostEvent) (s : State) : (s.withQueue q).host = { s.host with queue := q } := rfl
@[simp] theorem withQueue_fresh (q : List HostEvent) (s : State) : (s.withQueue q).fresh = s.fresh := rfl

/-! ### writeOperand -/

@[simp] theorem writeOperand_operands (off : WinOff) (v : Byte) (s : State) : (s.writeOperand off v).operands = s.operands.putAt v (locate off) := rfl
@[simp] theorem writeOperand_err (off : WinOff) (v : Byte) (s : State) : (s.writeOperand off v).err = s.err := rfl
@[simp] theorem writeOperand_spValid (off : WinOff) (v : Byte) (s : State) : (s.writeOperand off v).spValid = s.spValid := rfl
@[simp] theorem writeOperand_tempValid (off : WinOff) (v : Byte) (s : State) : (s.writeOperand off v).tempValid = s.tempValid := rfl
@[simp] theorem writeOperand_strongPuReq (off : WinOff) (v : Byte) (s : State) : (s.writeOperand off v).strongPuReq = s.strongPuReq := rfl
@[simp] theorem writeOperand_sp (off : WinOff) (v : Byte) (s : State) : (s.writeOperand off v).sp = s.sp := rfl
@[simp] theorem writeOperand_crcCalc (off : WinOff) (v : Byte) (s : State) : (s.writeOperand off v).crcCalc = s.crcCalc := rfl
@[simp] theorem writeOperand_crcCalcSet (off : WinOff) (v : Byte) (s : State) : (s.writeOperand off v).crcCalcSet = s.crcCalcSet := rfl
@[simp] theorem writeOperand_temp (off : WinOff) (v : Byte) (s : State) : (s.writeOperand off v).temp = s.temp := rfl
@[simp] theorem writeOperand_resByte (off : WinOff) (v : Byte) (s : State) : (s.writeOperand off v).resByte = s.resByte := rfl
@[simp] theorem writeOperand_resByteSet (off : WinOff) (v : Byte) (s : State) : (s.writeOperand off v).resByteSet = s.resByteSet := rfl
@[simp] theorem writeOperand_resDeg (off : WinOff) (v : Byte) (s : State) : (s.writeOperand off v).resDeg = s.resDeg := rfl
@[simp] theorem writeOperand_resDegSet (off : WinOff) (v : Byte) (s : State) : (s.writeOperand off v).resDegSet = s.resDegSet := rfl
@[simp] theorem writeOperand_busLog (off : WinOff) (v : Byte) (s : State) : (s.writeOperand off v).busLog = s.busLog := rfl
@[simp] theorem writeOperand_faultRec (off : WinOff) (v : Byte) (s : State) : (s.writeOperand off v).faultRec = s.faultRec := rfl
@[simp] theorem writeOperand_driver (off : WinOff) (v : Byte) (s : State) : (s.writeOperand off v).driver = s.driver := rfl
@[simp] theorem writeOperand_host (off : WinOff) (v : Byte) (s : State) : (s.writeOperand off v).host = s.host := rfl
@[simp] theorem writeOperand_fresh (off : WinOff) (v : Byte) (s : State) : (s.writeOperand off v).fresh = s.fresh := rfl

/-! ### answerRead -/

@[simp] theorem answerRead_operands (off : WinOff) (s : State) : (s.answerRead off).operands = s.operands := rfl
@[simp] theorem answerRead_err (off : WinOff) (s : State) : (s.answerRead off).err = s.err := rfl
@[simp] theorem answerRead_spValid (off : WinOff) (s : State) : (s.answerRead off).spValid = s.spValid := rfl
@[simp] theorem answerRead_tempValid (off : WinOff) (s : State) : (s.answerRead off).tempValid = s.tempValid := rfl
@[simp] theorem answerRead_strongPuReq (off : WinOff) (s : State) : (s.answerRead off).strongPuReq = s.strongPuReq := rfl
@[simp] theorem answerRead_sp (off : WinOff) (s : State) : (s.answerRead off).sp = s.sp := rfl
@[simp] theorem answerRead_crcCalc (off : WinOff) (s : State) : (s.answerRead off).crcCalc = s.crcCalc := rfl
@[simp] theorem answerRead_crcCalcSet (off : WinOff) (s : State) : (s.answerRead off).crcCalcSet = s.crcCalcSet := rfl
@[simp] theorem answerRead_temp (off : WinOff) (s : State) : (s.answerRead off).temp = s.temp := rfl
@[simp] theorem answerRead_resByte (off : WinOff) (s : State) : (s.answerRead off).resByte = s.resByte := rfl
@[simp] theorem answerRead_resByteSet (off : WinOff) (s : State) : (s.answerRead off).resByteSet = s.resByteSet := rfl
@[simp] theorem answerRead_resDeg (off : WinOff) (s : State) : (s.answerRead off).resDeg = s.resDeg := rfl
@[simp] theorem answerRead_resDegSet (off : WinOff) (s : State) : (s.answerRead off).resDegSet = s.resDegSet := rfl
@[simp] theorem answerRead_busLog (off : WinOff) (s : State) : (s.answerRead off).busLog = s.busLog := rfl
@[simp] theorem answerRead_faultRec (off : WinOff) (s : State) : (s.answerRead off).faultRec = s.faultRec := rfl
@[simp] theorem answerRead_driver (off : WinOff) (s : State) : (s.answerRead off).driver = s.driver := rfl
@[simp] theorem answerRead_host (off : WinOff) (s : State) : (s.answerRead off).host = { s.host with reads := s.host.reads ++ [(off, s.memRead off)] } := rfl
@[simp] theorem answerRead_fresh (off : WinOff) (s : State) : (s.answerRead off).fresh = s.fresh := rfl

/-! ### platformReset -/

@[simp] theorem platformReset_faultRec (s : State) : s.platformReset.faultRec = s.faultRec := rfl
@[simp] theorem platformReset_driver (s : State) : s.platformReset.driver = s.driver := rfl
@[simp] theorem platformReset_host (s : State) : s.platformReset.host = s.host := rfl
@[simp] theorem platformReset_fresh (s : State) : s.platformReset.fresh = s.fresh + 1 := rfl

/-! ### releasePullUp and the prologue: the spec's description of what a bus command does first (R73) -/

@[simp] theorem releasePullUp_operands (s : State) : s.releasePullUp.operands = s.operands := by
  unfold State.releasePullUp; cases s.strongPuReq <;> rfl

@[simp] theorem releasePullUp_err (s : State) : s.releasePullUp.err = s.err := by
  unfold State.releasePullUp; cases s.strongPuReq <;> rfl

@[simp] theorem releasePullUp_spValid (s : State) : s.releasePullUp.spValid = s.spValid := by
  unfold State.releasePullUp; cases s.strongPuReq <;> rfl

@[simp] theorem releasePullUp_tempValid (s : State) : s.releasePullUp.tempValid = s.tempValid := by
  unfold State.releasePullUp; cases s.strongPuReq <;> rfl

@[simp] theorem releasePullUp_strongPuReq (s : State) : s.releasePullUp.strongPuReq = false := by
  unfold State.releasePullUp; cases h : s.strongPuReq <;> simp [h]

@[simp] theorem releasePullUp_sp (s : State) : s.releasePullUp.sp = s.sp := by
  unfold State.releasePullUp; cases s.strongPuReq <;> rfl

@[simp] theorem releasePullUp_crcCalc (s : State) : s.releasePullUp.crcCalc = s.crcCalc := by
  unfold State.releasePullUp; cases s.strongPuReq <;> rfl

@[simp] theorem releasePullUp_crcCalcSet (s : State) : s.releasePullUp.crcCalcSet = s.crcCalcSet := by
  unfold State.releasePullUp; cases s.strongPuReq <;> rfl

@[simp] theorem releasePullUp_temp (s : State) : s.releasePullUp.temp = s.temp := by
  unfold State.releasePullUp; cases s.strongPuReq <;> rfl

@[simp] theorem releasePullUp_resByte (s : State) : s.releasePullUp.resByte = s.resByte := by
  unfold State.releasePullUp; cases s.strongPuReq <;> rfl

@[simp] theorem releasePullUp_resByteSet (s : State) : s.releasePullUp.resByteSet = s.resByteSet := by
  unfold State.releasePullUp; cases s.strongPuReq <;> rfl

@[simp] theorem releasePullUp_resDeg (s : State) : s.releasePullUp.resDeg = s.resDeg := by
  unfold State.releasePullUp; cases s.strongPuReq <;> rfl

@[simp] theorem releasePullUp_resDegSet (s : State) : s.releasePullUp.resDegSet = s.resDegSet := by
  unfold State.releasePullUp; cases s.strongPuReq <;> rfl

@[simp] theorem releasePullUp_busLog (s : State) : s.releasePullUp.busLog = s.busLog ++ releaseEntries s.strongPuReq := by
  unfold State.releasePullUp; cases h : s.strongPuReq <;> simp [State.busPullUp, releaseEntries]

@[simp] theorem releasePullUp_faultRec (s : State) : s.releasePullUp.faultRec = s.faultRec := by
  unfold State.releasePullUp; cases s.strongPuReq <;> rfl

@[simp] theorem releasePullUp_driver (s : State) : s.releasePullUp.driver = s.driver := by
  unfold State.releasePullUp; cases s.strongPuReq <;> rfl

@[simp] theorem releasePullUp_host (s : State) : s.releasePullUp.host = s.host := by
  unfold State.releasePullUp; cases s.strongPuReq <;> rfl

@[simp] theorem releasePullUp_fresh (s : State) : s.releasePullUp.fresh = s.fresh := by
  unfold State.releasePullUp; cases s.strongPuReq <;> rfl

@[simp] theorem prologue_operands (s : State) : s.prologue.operands = s.operands := by
  simp [State.prologue]

@[simp] theorem prologue_err (s : State) : s.prologue.err = s.err := by
  simp [State.prologue]

@[simp] theorem prologue_spValid (s : State) : s.prologue.spValid = false := by
  simp [State.prologue]

@[simp] theorem prologue_tempValid (s : State) : s.prologue.tempValid = false := by
  simp [State.prologue]

@[simp] theorem prologue_strongPuReq (s : State) : s.prologue.strongPuReq = false := by
  simp [State.prologue]

@[simp] theorem prologue_sp (s : State) : s.prologue.sp = s.sp := by
  simp [State.prologue]

@[simp] theorem prologue_crcCalc (s : State) : s.prologue.crcCalc = s.crcCalc := by
  simp [State.prologue]

@[simp] theorem prologue_crcCalcSet (s : State) : s.prologue.crcCalcSet = s.crcCalcSet := by
  simp [State.prologue]

@[simp] theorem prologue_temp (s : State) : s.prologue.temp = Config.tempSentinel := by
  simp [State.prologue]

@[simp] theorem prologue_resByte (s : State) : s.prologue.resByte = s.resByte := by
  simp [State.prologue]

@[simp] theorem prologue_resByteSet (s : State) : s.prologue.resByteSet = s.resByteSet := by
  simp [State.prologue]

@[simp] theorem prologue_resDeg (s : State) : s.prologue.resDeg = s.resDeg := by
  simp [State.prologue]

@[simp] theorem prologue_resDegSet (s : State) : s.prologue.resDegSet = s.resDegSet := by
  simp [State.prologue]

@[simp] theorem prologue_busLog (s : State) : s.prologue.busLog = s.busLog ++ releaseEntries s.strongPuReq := by
  simp [State.prologue]

@[simp] theorem prologue_faultRec (s : State) : s.prologue.faultRec = s.faultRec := by
  simp [State.prologue]

@[simp] theorem prologue_driver (s : State) : s.prologue.driver = s.driver := by
  simp [State.prologue]

@[simp] theorem prologue_host (s : State) : s.prologue.host = s.host := by
  simp [State.prologue]

@[simp] theorem prologue_fresh (s : State) : s.prologue.fresh = s.fresh := by
  simp [State.prologue]

/-! ### afterSelect: a bus command right after its selection -/

@[simp] theorem afterSelect_operands (a : Addr) (s : State) : (afterSelect a s).operands = s.operands := rfl
@[simp] theorem afterSelect_err (a : Addr) (s : State) : (afterSelect a s).err = s.err := rfl
@[simp] theorem afterSelect_spValid (a : Addr) (s : State) : (afterSelect a s).spValid = false := rfl
@[simp] theorem afterSelect_tempValid (a : Addr) (s : State) : (afterSelect a s).tempValid = false := rfl
@[simp] theorem afterSelect_strongPuReq (a : Addr) (s : State) : (afterSelect a s).strongPuReq = false := rfl
@[simp] theorem afterSelect_sp (a : Addr) (s : State) : (afterSelect a s).sp = s.sp := rfl
@[simp] theorem afterSelect_crcCalc (a : Addr) (s : State) : (afterSelect a s).crcCalc = s.crcCalc := rfl
@[simp] theorem afterSelect_crcCalcSet (a : Addr) (s : State) : (afterSelect a s).crcCalcSet = s.crcCalcSet := rfl
@[simp] theorem afterSelect_temp (a : Addr) (s : State) : (afterSelect a s).temp = Config.tempSentinel := rfl
@[simp] theorem afterSelect_resByte (a : Addr) (s : State) : (afterSelect a s).resByte = s.resByte := rfl
@[simp] theorem afterSelect_resByteSet (a : Addr) (s : State) : (afterSelect a s).resByteSet = s.resByteSet := rfl
@[simp] theorem afterSelect_resDeg (a : Addr) (s : State) : (afterSelect a s).resDeg = s.resDeg := rfl
@[simp] theorem afterSelect_resDegSet (a : Addr) (s : State) : (afterSelect a s).resDegSet = s.resDegSet := rfl
@[simp] theorem afterSelect_busLog (a : Addr) (s : State) : (afterSelect a s).busLog = s.busLog ++ releaseEntries s.strongPuReq ++ [.sel a s.selectAnswer] := rfl
@[simp] theorem afterSelect_faultRec (a : Addr) (s : State) : (afterSelect a s).faultRec = s.faultRec := rfl
@[simp] theorem afterSelect_driver (a : Addr) (s : State) : (afterSelect a s).driver = { s.driver with selects := s.driver.selects.tail } := rfl
@[simp] theorem afterSelect_host (a : Addr) (s : State) : (afterSelect a s).host = s.host := rfl
@[simp] theorem afterSelect_fresh (a : Addr) (s : State) : (afterSelect a s).fresh = s.fresh + 1 := rfl

end Sys2Proof.Machine
end

