-- ==== Sys2Proof/Laws/Ops.lean ====
section
/-! SUPPORT. What the shared operations can do, said once: operand reading (R37, R90, R128), the bus requests (R53),
selection (R118) and the effect of the prologue and the selection together (R73). -/

namespace Sys2Proof.Machine

@[simp] theorem busWriteByte_eq (b : Byte) (s : State) : s.busWriteByte b = s.logEvent (.wr b) := rfl

@[simp] theorem busPullUp_eq (l : PullLevel) (s : State) : s.busPullUp l = s.logEvent (.pu l) := rfl

@[simp] theorem busSelect_fst (a : Addr) (s : State) : (s.busSelect a).1 = s.selectAnswer := rfl

@[simp] theorem busSelect_snd (a : Addr) (s : State) :
    (s.busSelect a).2 = s.tookSelect.logEvent (.sel a s.selectAnswer) := rfl

@[simp] theorem busReadByte_fst (s : State) : s.busReadByte.1 = s.byteAnswer 0 := rfl

@[simp] theorem busReadByte_snd (s : State) : s.busReadByte.2 = s.tookByte.logEvent (.rd (s.byteAnswer 0)) := rfl

/-- The coming answer depends on the driver's list and the draw counter only. -/
theorem selectAnswer_congr {s t : State} (hd : t.driver = s.driver) (hf : t.fresh = s.fresh) :
    t.selectAnswer = s.selectAnswer := by
  simp only [State.selectAnswer, hd, hf]

theorem byteAnswer_congr {s t : State} (hd : t.driver = s.driver) (hf : t.fresh = s.fresh) (k : Nat) :
    t.byteAnswer k = s.byteAnswer k := by
  simp only [State.byteAnswer, hd, hf]

@[simp] theorem selectAnswer_prologue (s : State) : s.prologue.selectAnswer = s.selectAnswer :=
  selectAnswer_congr (by simp) (by simp)

/-- Taking a byte moves every later answer one place forward. -/
@[simp] theorem byteAnswer_tookByte (s : State) (k : Nat) : s.tookByte.byteAnswer k = s.byteAnswer (k + 1) := by
  simp only [State.byteAnswer, tookByte_driver, tookByte_fresh, List.getElem?_tail]
  rw [show s.fresh + 1 + k = s.fresh + (k + 1) by omega]

@[simp] theorem byteAnswer_logEvent (e : BusEvent) (s : State) (k : Nat) :
    (s.logEvent e).byteAnswer k = s.byteAnswer k := rfl

/-- No operand is missing exactly when every operand register of the command has been written. -/
theorem firstUnwritten_eq_none (i : Instr) (s : State) :
    s.firstUnwritten i = none ↔ ∀ r ∈ operandsOf i, s.operands.isWritten r = true := by
  simp [State.firstUnwritten, List.find?_eq_none]

/-- The register the fault names is an operand of the command and has not been written. -/
theorem firstUnwritten_eq_some {i : Instr} {s : State} {r : OperandReg} (h : s.firstUnwritten i = some r) :
    r ∈ operandsOf i ∧ s.operands.isWritten r = false := by
  refine ⟨List.mem_of_find?_eq_some h, ?_⟩
  simpa using List.find?_some h

/-- A command whose operands are written marks nothing. -/
theorem markUnwritten_of_written {i : Instr} {s : State} (h : ∀ r ∈ operandsOf i, s.operands.isWritten r = true) :
    s.markUnwritten i = s := by
  simp [State.markUnwritten, (firstUnwritten_eq_none i s).2 h]

/-- Everything reading the operands can do to the state: record the fault for an operand that was never written, or
nothing (R37, R128). -/
theorem markUnwritten_cases (i : Instr) (s : State) :
    (∃ r ∈ operandsOf i, s.operands.isWritten r = false ∧ s.markUnwritten i = s.recordFault i r) ∨
    ((∀ r ∈ operandsOf i, s.operands.isWritten r = true) ∧ s.markUnwritten i = s) := by
  cases h : s.firstUnwritten i with
  | some r =>
    obtain ⟨hm, hw⟩ := firstUnwritten_eq_some h
    exact .inl ⟨r, hm, hw, by simp [State.markUnwritten, h]⟩
  | none => exact .inr ⟨(firstUnwritten_eq_none i s).1 h, by simp [State.markUnwritten, h]⟩

/-! A written operand register gives a command what the host wrote (R61). -/

theorem fill_argHi {o : OperandRegs} (f : OperandReg → Nat → Byte) (h : o.isWritten .argHi = true) :
    (o.fill f).argHi = o.argHi := by
  simp only [OperandRegs.isWritten] at h; simp [OperandRegs.fill, h]

theorem fill_argLo {o : OperandRegs} (f : OperandReg → Nat → Byte) (h : o.isWritten .argLo = true) :
    (o.fill f).argLo = o.argLo := by
  simp only [OperandRegs.isWritten] at h; simp [OperandRegs.fill, h]

theorem fill_argB {o : OperandRegs} (f : OperandReg → Nat → Byte) (h : o.isWritten .argB = true) :
    (o.fill f).argB = o.argB := by
  simp only [OperandRegs.isWritten] at h; simp [OperandRegs.fill, h]

theorem fill_argD {o : OperandRegs} (f : OperandReg → Nat → Byte) (h : o.isWritten .argD = true) :
    (o.fill f).argD = o.argD := fillBytes_of_written (n := 2) _ _ h

theorem fill_addr {o : OperandRegs} (f : OperandReg → Nat → Byte) (h : o.isWritten .addr = true) :
    (o.fill f).addr = o.addr := fillBytes_of_written (n := 8) _ _ h

theorem selectDevice_notFound {a : Addr} {found : State → State} {s : State} (h : s.selectAnswer = .notFound) :
    s.selectDevice a found = (s.tookSelect.logEvent (.sel a .notFound)).report .deviceNotFound := by
  simp [State.selectDevice, State.busSelect, h]

theorem selectDevice_found {a : Addr} {found : State → State} {s : State} (h : s.selectAnswer = .found) :
    s.selectDevice a found = found (s.tookSelect.logEvent (.sel a .found)) := by
  simp [State.selectDevice, State.busSelect, h]

end Sys2Proof.Machine
end

