-- ==== Sys2Proof/Laws/PerInstr.lean ====
section
/-! SUPPORT. A per-instruction family about the command byte: `RSV` is 0 and `OP` is one of the eight (spec
30_encoding.md R59, R60). -/

namespace Sys2Proof.Laws.EncodingFields

/-- The command byte's reserved bits are 0, and its operation is below 8. -/
def Statement (i : Instr) : Prop := rsvField (encode i) = 0 ∧ opField (encode i) = opcode i ∧ (opcode i).toNat < 8

theorem nop : Statement .nop := by unfold Statement; decide
theorem spread : Statement .spread := by unfold Statement; decide
theorem spwrite : Statement .spwrite := by unfold Statement; decide
theorem spstore : Statement .spstore := by unfold Statement; decide
theorem sprecall : Statement .sprecall := by unfold Statement; decide
theorem tdecode : Statement .tdecode := by unfold Statement; decide
theorem almenc : Statement .almenc := by unfold Statement; decide
theorem almdec : Statement .almdec := by unfold Statement; decide

end Sys2Proof.Laws.EncodingFields
end

