-- ==== Sys2Proof/Laws/Transfer.lean ====
section
/-! SUPPORT. What SPREAD's loop and its check do, said once (spec R75, R76). -/

namespace Sys2Proof.Machine

open Sys2Proof.Safety

theorem nineAnswers_getElem (s : State) (i : Nat) (h : i < 9) : (nineAnswers s)[i] = s.byteAnswer i := by
  interval_cases i <;> rfl

theorem vector9_set_all (v : Vector Byte 9) (b : Nat → Byte) :
    ((((((((v.set 0 (b 0)).set 1 (b 1)).set 2 (b 2)).set 3 (b 3)).set 4 (b 4)).set 5 (b 5)).set 6 (b 6)).set 7
      (b 7)).set 8 (b 8) = #v[b 0, b 1, b 2, b 3, b 4, b 5, b 6, b 7, b 8] := by
  ext i hi
  simp only [Vector.getElem_set]
  interval_cases i <;> simp

/-- SPREAD's loop reads nine bytes in order, stores all of them, logs each, and leaves the CRC of the first eight. -/
theorem spreadLoop_eq (p : Params) (s : State) :
    spreadLoop p s =
      (crcOf p (nineAnswers s),
        { s with
          sp := nineAnswers s
          busLog := s.busLog ++ (nineAnswers s).toList.map .rd
          driver := { s.driver with bytes := s.driver.bytes.drop 9 }
          fresh := s.fresh + 9 }) := by
  have h := vector9_set_all s.sp s.byteAnswer
  simp only [spreadLoop, spPositions, List.foldl_cons, List.foldl_nil, spreadByte, State.busReadByte]
  refine Prod.ext ?_ ?_
  · simp [crcOf, nineAnswers, State.byteAnswer, State.tookByte, State.logEvent]
  · have hd : s.driver.bytes.tail.tail.tail.tail.tail.tail.tail.tail.tail = s.driver.bytes.drop 9 := by
      simp [← List.drop_one, List.drop_drop]
    simp only [State.tookByte, State.logEvent, State.byteAnswer] at h ⊢
    simp [nineAnswers, State.byteAnswer, Nat.add_assoc, hd] at h ⊢
    exact h

/-- Before the selection and after it, the coming bytes are the same list; one draw has been taken. -/
theorem nineAnswers_congr {s t : State} (hd : t.driver.bytes = s.driver.bytes) (hf : t.fresh = s.fresh) :
    nineAnswers t = nineAnswers s := by
  simp [nineAnswers, State.byteAnswer, hd, hf]

/-- The prologue and the selection together: everything before a bus command's own requests (R73, R118). -/
theorem tookSelect_prologue_eq (a : Addr) (s : State) :
    s.prologue.tookSelect.logEvent (.sel a s.selectAnswer) = afterSelect a s := by
  ext1 <;> simp

/-- A bus command whose device is absent ends right after its selection (R118). -/
theorem selectDevice_prologue_notFound {a : Addr} {found : State → State} {s : State}
    (h : s.selectAnswer = .notFound) :
    s.prologue.selectDevice a found = (afterSelect a s).report .deviceNotFound := by
  rw [selectDevice_notFound (by simpa using h), ← tookSelect_prologue_eq, h]

/-- A bus command whose device answers goes on from `afterSelect`. -/
theorem selectDevice_prologue_found {a : Addr} {found : State → State} {s : State} (h : s.selectAnswer = .found) :
    s.prologue.selectDevice a found = found (afterSelect a s) := by
  rw [selectDevice_found (by simpa using h), ← tookSelect_prologue_eq, h]

/-- What SPREAD does once its device is found: nine bytes are stored and logged, the CRC is kept, and the comparison
decides `SP_VALID` and `ERR` (R75, R78). -/
theorem spreadFound_eq (p : Params) (s : State) :
    spreadFound p s =
      { s with
        sp := nineAnswers s
        crcCalc := crcOf p (nineAnswers s)
        crcCalcSet := true
        spValid := if crcOf p (nineAnswers s) = (nineAnswers s)[8] then true else s.spValid
        err := if crcOf p (nineAnswers s) = (nineAnswers s)[8] then .ok else .crcMismatch
        busLog := s.busLog ++ .wr p.opReadSp :: (nineAnswers s).toList.map .rd
        driver := { s.driver with bytes := s.driver.bytes.drop 9 }
        fresh := s.fresh + 9 } := by
  have hn : nineAnswers (s.logEvent (.wr p.opReadSp)) = nineAnswers s := rfl
  simp only [spreadFound, busWriteByte_eq, spreadLoop_eq, hn, spreadCheck]
  by_cases h : crcOf p (nineAnswers s) = (nineAnswers s)[8]
  · simp [h, State.report, State.logEvent]
  · simp [h, State.report, State.logEvent]

end Sys2Proof.Machine
end

