-- ==== Sys2Proof/Laws/Window.lean ====
section
/-! SUPPORT. The register window: where each offset leads, and what a read depends on (spec 20_memory.md R41). -/

namespace Sys2Proof.Machine

@[simp] theorem locate_cmd : locate 0x00#6 = .cmd := by decide
@[simp] theorem locate_status : locate 0x01#6 = .status := by decide
@[simp] theorem locate_argHi : locate 0x02#6 = .argHi := by decide
@[simp] theorem locate_argLo : locate 0x03#6 = .argLo := by decide
@[simp] theorem locate_argB : locate 0x06#6 = .argB := by decide
@[simp] theorem locate_resByte : locate 0x07#6 = .resByte := by decide
@[simp] theorem locate_crcCalc : locate 0x0C#6 = .crcCalc := by decide

/-- No two offsets outside the reserved ones lead to the same place (R41). -/
theorem locate_injective {a b : WinOff} (h : locate a = locate b) (hr : locate a ≠ .reserved) : a = b := by
  revert a b; decide

/-- Only offset 0x00 is `CMD` (R41). -/
theorem locate_eq_cmd_iff (a : WinOff) : locate a = .cmd ↔ a = 0x00#6 := by
  revert a; decide

/-- A window read depends on the block's window registers and the number of earlier reads only. -/
theorem memRead_congr {s t : State} {off : WinOff} (h : t.heldByte (locate off) = s.heldByte (locate off))
    (hs : t.specified (locate off) = s.specified (locate off)) (hr : t.host.reads = s.host.reads) :
    t.memRead off = s.memRead off := by
  simp only [State.memRead, h, hs, hr]

/-- A specified byte reads as what is held (R41). -/
theorem memRead_of_specified {s : State} {off : WinOff} (h : s.specified (locate off) = true) :
    s.memRead off = s.heldByte (locate off) := by
  simp [State.memRead, h]

/-- An unspecified byte reads as any value (R39). -/
theorem memRead_of_unspecified {s : State} {off : WinOff} (h : s.specified (locate off) = false) :
    s.memRead off = Config.freeRead s.host.reads.length off := by
  simp [State.memRead, h]

theorem all_set_true {n : Nat} {v : Vector Bool n} (k : Fin n) (h : v.toList.all id = true) :
    (v.set k true).toList.all id = true := by
  rcases v with ⟨⟨l⟩, hl⟩
  simp only [List.all_eq_true, id_eq, Vector.toList_mk] at h
  simp only [Vector.set_mk, List.set_toArray, Vector.toList_mk, List.all_eq_true, id_eq]
  intro x hx
  rcases List.mem_or_eq_of_mem_set hx with hx | hx
  · exact h x hx
  · exact hx

/-- A host write never makes a written operand register unwritten (R37). -/
theorem isWritten_putAt {o : OperandRegs} {r : OperandReg} (v : Byte) (l : WinLoc) (h : o.isWritten r = true) :
    (o.putAt v l).isWritten r = true := by
  cases l <;> first | exact h | (cases r <;> first | exact h | rfl | exact all_set_true _ h)

/-- A host write and hiding agree in either order (R37, R46). -/
theorem hideUnwritten_putAt (o : OperandRegs) (v : Byte) (l : WinLoc) :
    Safety.hideUnwritten (o.putAt v l) = (Safety.hideUnwritten o).putAt v l := by
  cases l <;> try rfl
  case argD k =>
    simp only [Safety.hideUnwritten, OperandRegs.fill, OperandRegs.putAt]; rw [fillBytes_putByte (n := 2)]
  case addr k =>
    simp only [Safety.hideUnwritten, OperandRegs.fill, OperandRegs.putAt]; rw [fillBytes_putByte (n := 8)]

end Sys2Proof.Machine
end

