-- ==== Sys2Proof/Laws/Step.lean ====
section
/-! SUPPORT. What a step can do, said once; every invariant is a case analysis over it. -/

namespace Sys2Proof.Machine

open Sys2Proof.Safety

/-- Everything a host event can do when it answers a next state (R46, R47, R59, R135). -/
theorem serve_cases {e : HostEvent} {s t : State} (h : serve e s = .next t) :
    (∃ off, e = .read off ∧ t = s.answerRead off) ∨
    (∃ off v, e = .write off v ∧ locate off ≠ .cmd ∧ t = s.writeOperand off v) ∨
    (∃ off c i, e = .write off c ∧ locate off = .cmd ∧ decode c = .ok i ∧ exec i s = .next t) ∨
    (∃ off c r, e = .write off c ∧ locate off = .cmd ∧ decode c = .error r ∧ t = s.report .illegalCommand) ∨
    (e = .reset ∧ t = s.platformReset) := by
  cases e with
  | read off => exact .inl ⟨off, rfl, by simpa [serve] using h.symm⟩
  | write off v =>
    by_cases hc : locate off = .cmd
    · simp only [serve, hc, if_true, writeCmd] at h
      split at h
      · next i hi => exact .inr (.inr (.inl ⟨off, v, i, rfl, hc, hi, h⟩))
      · next r hr => exact .inr (.inr (.inr (.inl ⟨off, v, r, rfl, hc, hr, by simpa using h.symm⟩)))
    · exact .inr (.inl ⟨off, v, rfl, hc, by simpa [serve, hc] using h.symm⟩)
  | wide off n => simp [serve] at h
  | overlapping off => simp [serve] at h
  | reset => exact .inr (.inr (.inr (.inr ⟨rfl, by simpa [serve] using h.symm⟩)))

/-- A step that answers a next state waited, or served the host's next event. -/
theorem step_cases {s t : State} (h : step s = .next t) :
    (s.host.queue = [] ∧ t = s) ∨ ∃ e q, s.host.queue = e :: q ∧ serve e (s.withQueue q) = .next t := by
  simp only [step, advance] at h
  cases hq : s.host.queue with
  | nil => simp only [hq] at h; exact .inl ⟨rfl, by simpa using h.symm⟩
  | cons e q => simp only [hq] at h; exact .inr ⟨e, q, rfl, h⟩

/-- The step of a state whose next event is `e` serves `e`. -/
theorem step_of_event {s : State} {e : HostEvent} {q : List HostEvent} (hq : s.host.queue = e :: q) :
    step s = serve e (s.withQueue q) := by
  simp [step, advance, hq]

/-- A write of offset 0x00 runs `writeCmd`. -/
theorem serve_write_cmd (c : Byte) (s : State) : serve (.write 0x00#6 c) s = writeCmd c s := by
  simp [serve]

theorem writeCmd_ok {c : Byte} {i : Instr} (h : decode c = .ok i) (s : State) : writeCmd c s = exec i s := by
  simp [writeCmd, h]

/-- What each command does to the state with the operand values it read. -/
def runOf : Instr → OperandRegs → State → State
  | .nop => fun _ s => s
  | .spread => spreadWith Config.params
  | .spwrite => spwriteWith Config.params
  | .spstore => spstoreWith Config.params
  | .sprecall => sprecallWith Config.params
  | .tdecode => fun _ s => tdecodeRun s
  | .almenc => almencRun
  | .almdec => almdecRun

/-- Every command completes, from every state: it reads its operands, then runs with the values it read (R90). -/
theorem exec_eq (i : Instr) (s : State) : exec i s = .next (runOf i s.operandValues (s.markUnwritten i)) := by
  cases i <;> rfl

/-- What a command reads matters to it only through its own operand registers (R61). -/
theorem runOf_congr {i : Instr} {o p : OperandRegs} (s : State)
    (h : ∀ r ∈ operandsOf i,
      match r with
      | .addr => o.addr = p.addr
      | .argHi => o.argHi = p.argHi
      | .argLo => o.argLo = p.argLo
      | .argD => o.argD = p.argD
      | .argB => o.argB = p.argB) : runOf i o s = runOf i p s := by
  cases i <;> simp [operandsOf] at h <;>
    simp [runOf, spreadWith, spwriteWith, spstoreWith, sprecallWith, almencRun, almdecRun, h]

/-- A command whose operands are written runs with what the host wrote. -/
theorem exec_of_ready {i : Instr} {s : State} (h : OperandsReady i s) : exec i s = .next (runOf i s.operands s) := by
  rw [exec_eq, markUnwritten_of_written h]
  refine congrArg _ (runOf_congr s fun r hr => ?_)
  have hw := h r hr
  cases r
  · exact fill_addr _ hw
  · exact fill_argHi _ hw
  · exact fill_argLo _ hw
  · exact fill_argD _ hw
  · exact fill_argB _ hw

/-- A command that reads no operand register runs as it is. -/
theorem exec_of_no_operands {i : Instr} (h : operandsOf i = []) (s : State) :
    exec i s = .next (runOf i s.operands s) :=
  exec_of_ready (by simp [OperandsReady, h])

/-- Everything a bus command can do with the operand values it read: raise DeviceNotFound right after the selection, or
go on with its own requests (R118). -/
theorem runOf_bus_cases {i : Instr} (hb : isBusCommand i = true) (o : OperandRegs) (s : State) :
    (s.selectAnswer = .notFound ∧ runOf i o s = (afterSelect o.addr s).report .deviceNotFound) ∨
    (s.selectAnswer = .found ∧
      ((i = .spread ∧ runOf i o s = spreadFound Config.params (afterSelect o.addr s)) ∨
       (i = .spwrite ∧ runOf i o s = spwriteFound Config.params o.argHi o.argLo (afterSelect o.addr s)) ∨
       (i = .spstore ∧ runOf i o s = spstoreFound Config.params (afterSelect o.addr s)) ∨
       (i = .sprecall ∧ runOf i o s = sprecallFound Config.params (afterSelect o.addr s)))) := by
  cases h : s.selectAnswer
  · cases i <;> simp only [isBusCommand, Bool.false_eq_true] at hb
    · exact .inr ⟨rfl, .inl ⟨rfl, selectDevice_prologue_found h⟩⟩
    · exact .inr ⟨rfl, .inr (.inl ⟨rfl, selectDevice_prologue_found h⟩)⟩
    · exact .inr ⟨rfl, .inr (.inr (.inl ⟨rfl, selectDevice_prologue_found h⟩))⟩
    · exact .inr ⟨rfl, .inr (.inr (.inr ⟨rfl, selectDevice_prologue_found h⟩))⟩
  · cases i <;> simp only [isBusCommand, Bool.false_eq_true] at hb <;>
      exact .inl ⟨rfl, selectDevice_prologue_notFound h⟩

/-- Everything TDECODE can do (R109). -/
theorem tdecodeRun_cases (s : State) :
    (s.spValid = false ∧ tdecodeRun s = s.decodeFailed .noValidScratchpad) ∨
    (s.spValid = true ∧ decodeTemperature s.sp = .malformedScratchpad ∧
      tdecodeRun s = s.decodeFailed .malformedScratchpad) ∨
    (∃ t, s.spValid = true ∧ decodeTemperature s.sp = .temperature t ∧ tdecodeRun s = s.decodeOk t) := by
  unfold tdecodeRun
  cases h : s.spValid
  · simp
  · cases hd : decodeTemperature s.sp <;> simp

/-- One event of a script, then the rest. -/
theorem serveAll_cons {e : HostEvent} {es : List HostEvent} {s t : State} (h : serve e s = .next t) :
    serveAll (e :: es) s = serveAll es t := by
  simp [serveAll, andThen, h]

/-- In the strict reading a recorded fault admits nothing (R40). -/
theorem strictStep_of_fault {s : State} {f : ModelFault} (h : s.faultRec = some f) : strictStep s = none := by
  simp [strictStep, h]

/-- In the strict reading a command whose operands are written runs as in the machine. -/
theorem strictExec_of_ready {i : Instr} {s : State} (h : OperandsReady i s) : strictExec i s = exec i s := by
  simp [strictExec, (firstUnwritten_eq_none i s).2 h]

end Sys2Proof.Machine
end

