-- ==== Sys2Proof/Laws/Script.lean ====
section
/-! SUPPORT. Host scripts: running one script after another, and what each script line does (spec 30_encoding.md R62,
R63, R69). -/

namespace Sys2Proof.Machine

open Sys2Proof.Safety

/-- Once the first part answers `s`, the whole answers what the rest answers at `s`. -/
theorem andThen_of_next {α : Type} {o : Host.Outcome State Fault Refusal} {s : State}
    {f : State → Host.Outcome α Fault Refusal} (h : o = .next s) : andThen o f = f s := by rw [h]; rfl

/-- A script in two parts runs the first, then the second. -/
theorem serveAll_append {es fs : List HostEvent} {s t : State} (h : serveAll es s = .next t) :
    serveAll (es ++ fs) s = serveAll fs t := by
  induction es generalizing s with
  | nil => simp only [serveAll, Host.Outcome.next.injEq] at h; subst h; rfl
  | cons e es ih =>
    simp only [serveAll, List.cons_append] at h ⊢
    cases he : serve e s with
    | next u => simp only [he, andThen] at h ⊢; exact ih h
    | fault r => simp [he, andThen] at h
    | refused r => simp [he, andThen] at h

/-- A mnemonic alone is one command (R69). -/
theorem serveAll_command {i : Instr} {s : State} (hd : decode (encode i) = .ok i) :
    serveAll (ScriptLine.command i).events s = exec i s := by
  simp only [ScriptLine.events, serveAll, serve_write_cmd, writeCmd_ok hd]
  cases exec i s <;> rfl

/-- Eight byte writes, lowest offset first, put the number into `ADDR` whatever stood there (R63, R69). -/
theorem serveAll_wr_addr (s : State) (a : Int) :
    serveAll (ScriptLine.wr .addr a).events s = .next
      { s with
        operands :=
          { s.operands with
            addr := BitVec.ofInt 64 a
            written := { s.operands.written with addr := Vector.replicate 8 true } } } := by
  have l0 : locate 0x10#6 = .addr 0 := by decide
  have l1 : locate 0x11#6 = .addr 1 := by decide
  have l2 : locate 0x12#6 = .addr 2 := by decide
  have l3 : locate 0x13#6 = .addr 3 := by decide
  have l4 : locate 0x14#6 = .addr 4 := by decide
  have l5 : locate 0x15#6 = .addr 5 := by decide
  have l6 : locate 0x16#6 = .addr 6 := by decide
  have l7 : locate 0x17#6 = .addr 7 := by decide
  have hv : (putByte (putByte (putByte (putByte (putByte (putByte (putByte (putByte s.operands.addr
      0 (byteOf (BitVec.ofInt 64 a) 0)) 1 (byteOf (BitVec.ofInt 64 a) 1)) 2 (byteOf (BitVec.ofInt 64 a) 2))
      3 (byteOf (BitVec.ofInt 64 a) 3)) 4 (byteOf (BitVec.ofInt 64 a) 4)) 5 (byteOf (BitVec.ofInt 64 a) 5))
      6 (byteOf (BitVec.ofInt 64 a) 6)) 7 (byteOf (BitVec.ofInt 64 a) 7)) = BitVec.ofInt 64 a := by
    apply eq_of_byteOf_eq (n := 8)
    intro k hk
    interval_cases k <;> simp [byteOf_putByte_same, byteOf_putByte_other]
  have hw : ∀ v : Vector Bool 8, (((((((v.set 0 true).set 1 true).set 2 true).set 3 true).set 4 true).set 5 true).set 6
      true).set 7 true = Vector.replicate 8 true := by
    intro v
    ext i hi
    simp only [Vector.getElem_set, Vector.getElem_replicate]
    interval_cases i <;> simp
  have he : (ScriptLine.wr .addr a).events =
      [.write 0x10#6 (byteOf (BitVec.ofInt 64 a) 0), .write 0x11#6 (byteOf (BitVec.ofInt 64 a) 1),
        .write 0x12#6 (byteOf (BitVec.ofInt 64 a) 2), .write 0x13#6 (byteOf (BitVec.ofInt 64 a) 3),
        .write 0x14#6 (byteOf (BitVec.ofInt 64 a) 4), .write 0x15#6 (byteOf (BitVec.ofInt 64 a) 5),
        .write 0x16#6 (byteOf (BitVec.ofInt 64 a) 6), .write 0x17#6 (byteOf (BitVec.ofInt 64 a) 7)] := rfl
  rw [he]
  simp [serveAll, andThen, serve, l0, l1, l2, l3, l4, l5, l6, l7, State.writeOperand, OperandRegs.putAt]
  exact ⟨hv, hw _⟩

/-- Two byte writes put an s16 number into `ARG_D` whatever stood there (R62, R72). -/
theorem serveAll_wr_argD (s : State) (d : Int) :
    serveAll (ScriptLine.wr .argD d).events s = .next
      { s with
        operands :=
          { s.operands with
            argD := BitVec.ofInt 16 d
            written := { s.operands.written with argD := Vector.replicate 2 true } } } := by
  have l0 : locate 0x04#6 = .argD 0 := by decide
  have l1 : locate 0x05#6 = .argD 1 := by decide
  have hb : ∀ k < 2, byteOf (BitVec.ofInt 64 d) k = byteOf (BitVec.ofInt 16 d) k := by
    intro k hk
    apply BitVec.eq_of_getLsbD_eq
    intro i hi
    have e : (BitVec.ofInt 64 d).setWidth 16 = BitVec.ofInt 16 d := by
      apply BitVec.eq_of_toNat_eq
      simp only [BitVec.toNat_setWidth, BitVec.toNat_ofInt]
      omega
    rw [getLsbD_byteOf, getLsbD_byteOf, ← e, BitVec.getLsbD_setWidth]
    simp [show 8 * k + i < 16 by omega]
  have hv : putByte (putByte s.operands.argD 0 (byteOf (BitVec.ofInt 64 d) 0)) 1 (byteOf (BitVec.ofInt 64 d) 1) =
      BitVec.ofInt 16 d := by
    apply eq_of_byteOf_eq (n := 2)
    intro k hk
    interval_cases k <;> simp [byteOf_putByte_same, byteOf_putByte_other, hb]
  have hw : ∀ v : Vector Bool 2, (v.set 0 true).set 1 true = Vector.replicate 2 true := by
    intro v
    ext i hi
    simp only [Vector.getElem_set, Vector.getElem_replicate]
    interval_cases i <;> simp
  have he : (ScriptLine.wr .argD d).events =
      [.write 0x04#6 (byteOf (BitVec.ofInt 64 d) 0), .write 0x05#6 (byteOf (BitVec.ofInt 64 d) 1)] := rfl
  rw [he]
  simp [serveAll, andThen, serve, l0, l1, State.writeOperand, OperandRegs.putAt]
  exact ⟨hv, hw _⟩

theorem byteOf_ofInt_zero (v : Int) : byteOf (BitVec.ofInt 64 v) 0 = BitVec.ofInt 8 v := by
  apply BitVec.eq_of_getLsbD_eq
  intro i hi
  have e : (BitVec.ofInt 64 v).setWidth 8 = BitVec.ofInt 8 v := by
    apply BitVec.eq_of_toNat_eq
    simp only [BitVec.toNat_setWidth, BitVec.toNat_ofInt]
    omega
  rw [getLsbD_byteOf, ← e, BitVec.getLsbD_setWidth]
  simp

/-- One byte write puts a u8 number into `ARG_HI` (R69). -/
theorem serveAll_wr_argHi (s : State) (v : Int) :
    serveAll (ScriptLine.wr .argHi v).events s = .next
      { s with
        operands :=
          { s.operands with argHi := BitVec.ofInt 8 v, written := { s.operands.written with argHi := true } } } := by
  have he : (ScriptLine.wr .argHi v).events = [.write 0x02#6 (byteOf (BitVec.ofInt 64 v) 0)] := rfl
  rw [he, byteOf_ofInt_zero]
  simp [serveAll, andThen, serve, State.writeOperand, OperandRegs.putAt]

/-- One byte write puts a u8 number into `ARG_LO` (R69). -/
theorem serveAll_wr_argLo (s : State) (v : Int) :
    serveAll (ScriptLine.wr .argLo v).events s = .next
      { s with
        operands :=
          { s.operands with argLo := BitVec.ofInt 8 v, written := { s.operands.written with argLo := true } } } := by
  have he : (ScriptLine.wr .argLo v).events = [.write 0x03#6 (byteOf (BitVec.ofInt 64 v) 0)] := rfl
  rw [he, byteOf_ofInt_zero]
  simp [serveAll, andThen, serve, State.writeOperand, OperandRegs.putAt]

/-- One byte write puts a u8 number into `ARG_B` (R69). -/
theorem serveAll_wr_argB (s : State) (v : Int) :
    serveAll (ScriptLine.wr .argB v).events s = .next
      { s with
        operands :=
          { s.operands with argB := BitVec.ofInt 8 v, written := { s.operands.written with argB := true } } } := by
  have he : (ScriptLine.wr .argB v).events = [.write 0x06#6 (byteOf (BitVec.ofInt 64 v) 0)] := rfl
  rw [he, byteOf_ofInt_zero]
  simp [serveAll, andThen, serve, State.writeOperand, OperandRegs.putAt]

/-- One read answers the host (R46). -/
theorem serveAll_read (s : State) (off : WinOff) :
    serveAll [.read off] s = .next (s.answerRead off) := by
  simp [serveAll, andThen, serve]

end Sys2Proof.Machine
end

