-- ==== Sys2Proof/Tests/Slice0.lean ====
section
/-! SUPPORT. The model's own tests: the smoke test of WellFormed, decode words written out from the opcode map, the spec's
test vectors (95_test_vectors.md, named in each docstring) one step at a time, and a witness for the hypotheses of every
statement that has any. -/

namespace Sys2Proof.Tests

open Sys2Proof.Machine Sys2Proof.Safety

/-! ### WellFormed refuses an ill-formed term for each check -/

theorem test_wellFormed_accepts :
    (HostEvent.wide 0 2).wellFormed = true ∧ (ScriptLine.wr .argD (-32768)).wellFormed = true ∧
    (Pseudo.spwrite (2 ^ 64 - 1) 255 0).wellFormed = true ∧ (Pseudo.almenc 32767).wellFormed = true := by decide

theorem test_wellFormed_refuses_wide_of_one_byte : (HostEvent.wide 0 1).wellFormed = false := by decide
theorem test_wellFormed_refuses_u8_too_large : (ScriptLine.wr .argHi 256).wellFormed = false := by decide
theorem test_wellFormed_refuses_u8_negative : (ScriptLine.wr .argB (-1)).wellFormed = false := by decide
theorem test_wellFormed_refuses_u64_too_large : (ScriptLine.wr .addr (2 ^ 64)).wellFormed = false := by decide
theorem test_wellFormed_refuses_s16_too_large : (ScriptLine.wr .argD 32768).wellFormed = false := by decide
theorem test_wellFormed_refuses_s16_too_small : (ScriptLine.wr .argD (-32769)).wellFormed = false := by decide

theorem test_wellFormed_refuses_pseudo_arguments :
    (Pseudo.spread (-1)).wellFormed = false ∧ (Pseudo.spwrite (-1) 0 0).wellFormed = false ∧
    (Pseudo.spwrite 0 256 0).wellFormed = false ∧ (Pseudo.spwrite 0 0 256).wellFormed = false ∧
    (Pseudo.spstore (2 ^ 64)).wellFormed = false ∧ (Pseudo.sprecall (-1)).wellFormed = false ∧
    (Pseudo.almenc 32768).wellFormed = false ∧ (Pseudo.almdec 256).wellFormed = false ∧
    (Pseudo.readtemp (-1)).wellFormed = false := by decide

/-! ### Decode: RSV (4 bits) then OP (4 bits), written out from R59 and R60 -/

theorem test_decode_nop : decode 0b0000_0000#8 = .ok .nop := by rfl
theorem test_decode_spread : decode 0b0000_0001#8 = .ok .spread := by rfl
theorem test_decode_spwrite : decode 0b0000_0010#8 = .ok .spwrite := by rfl
theorem test_decode_spstore : decode 0b0000_0011#8 = .ok .spstore := by rfl
theorem test_decode_sprecall : decode 0b0000_0100#8 = .ok .sprecall := by rfl
theorem test_decode_tdecode : decode 0b0000_0101#8 = .ok .tdecode := by rfl
theorem test_decode_almenc : decode 0b0000_0110#8 = .ok .almenc := by rfl
theorem test_decode_almdec : decode 0b0000_0111#8 = .ok .almdec := by rfl

/-- T-D1's illegal rows. -/
theorem test_decode_rejects :
    decode 0x08#8 = .error .reservedOp ∧ decode 0x0F#8 = .error .reservedOp ∧ decode 0x10#8 = .error .reservedBits ∧
    decode 0x11#8 = .error .reservedBits ∧ decode 0x81#8 = .error .reservedBits ∧
    decode 0xFF#8 = .error .reservedBits := ⟨rfl, rfl, rfl, rfl, rfl, rfl⟩

theorem test_decodeTableWord :
    decodeTableWord 8 0x06 = some .almenc ∧ decodeTableWord 8 0x16 = none ∧ decodeTableWord 8 0x106 = none := by decide

/-! ### The test vectors' parameters and small states -/

/-- The default `CRC8_STEP` of the test vectors (93_implementation_defined.md X1, general knowledge): one bit. -/
def dallasBit (acc : Byte) (bit : Bool) : Byte :=
  if (acc.getLsbD 0 != bit) then (acc >>> 1) ^^^ 0x8C#8 else acc >>> 1

/-- The default `CRC8_STEP` of the test vectors: least significant bit first (X1). -/
def dallasStep (acc b : Byte) : Byte :=
  [b.getLsbD 0, b.getLsbD 1, b.getLsbD 2, b.getLsbD 3, b.getLsbD 4, b.getLsbD 5, b.getLsbD 6, b.getLsbD 7].foldl
    dallasBit acc

/-- The defaults every vector assumes (X1, X2, X3). -/
def vectorParams : Params where
  crc8Step := dallasStep
  crcInit := 0x00
  opReadSp := 0xBE
  opWriteSp := 0x4E
  opCopySp := 0x48
  opRecallEe := 0xB8

/-- After reset, every operand written, and the bus driver's coming answers given. -/
def prepared (selects : List SelectAnswer) (bytes : List Byte) : State :=
  { State.reset with
    operands :=
      { addr := 0x1122334455667788, argHi := 0x4B, argLo := 0x46, argD := 0xFFFF, argB := 0x81,
        written := { argHi := true, argLo := true, argD := .replicate 2 true, argB := true, addr := .replicate 8 true } }
    driver := { selects := selects, bytes := bytes } }

/-- The operand values of a prepared state. -/
def written : OperandRegs := (prepared [] []).operands

/-- After reset, with the host's events in its queue. -/
def asking (es : List HostEvent) : State := { State.reset with host := { queue := es, reads := [] } }

/-- A state that holds a scratchpad as verified. -/
def holding (sp : Vector Byte 9) : State := { State.reset with sp := sp, spValid := true }

/-- The next state, if there is one. -/
def nextState : Host.Outcome State Fault Refusal → Option State
  | .next s => some s
  | .fault _ => none
  | .refused _ => none

/-! ### CRC (T-R1, T-R2) -/

/-- T-R1. -/
theorem test_crc_step_check_values :
    dallasStep 0x00 0x01 = 0x5E#8 ∧ dallasStep 0x00 0x80 = 0x8C#8 ∧ dallasStep 0x00 0xFF = 0x35#8 := by decide

/-- T-R2, rows 1, 8 and 17. -/
theorem test_crc_of_scratchpads :
    crcOf vectorParams #v[0x91, 0x01, 0x4B, 0x46, 0x7F, 0xFF, 0x0C, 0x10, 0] = 0x70#8 ∧
    crcOf vectorParams #v[0x00, 0x00, 0x4B, 0x46, 0xFF, 0xFF, 0x4F, 0x33, 0] = 0x1E#8 ∧
    crcOf vectorParams #v[0xFF, 0xFF, 0xFF, 0xFF, 0xFF, 0xFF, 0xFF, 0xFF, 0] = 0xC9#8 :=
  by decide +kernel

/-! ### The commands, at most two each -/

/-- T-R3: the log, the scratchpad and the flags of a SPREAD that verifies. -/
theorem test_spread_verifies :
    let t := spreadWith vectorParams written (prepared [.found] [0x91, 0x01, 0x4B, 0x46, 0x7F, 0xFF, 0x0C, 0x10, 0x70])
    t.busLog = [.sel 0x1122334455667788 .found, .wr 0xBE, .rd 0x91, .rd 0x01, .rd 0x4B, .rd 0x46, .rd 0x7F, .rd 0xFF,
      .rd 0x0C, .rd 0x10, .rd 0x70] ∧ t.crcCalc = 0x70#8 ∧ t.status = 0x08#8 :=
  by decide +kernel

/-- T-R4 and T-R8: a corrupted ninth byte, and strong pull-up released first. -/
theorem test_spread_corrupted_after_store :
    let t := spreadWith vectorParams written
      { prepared [.found] [0x91, 0x01, 0x4B, 0x46, 0x7F, 0xFF, 0x0C, 0x10, 0x71] with strongPuReq := true }
    t.status = 0x02#8 ∧ t.crcCalc = 0x70#8 ∧ t.busLog.take 2 = [.pu .weak, .sel 0x1122334455667788 .found] :=
  by decide +kernel

/-- T-W1. -/
theorem test_spwrite_high_then_low :
    let t := spwriteWith vectorParams written (prepared [.found] [])
    t.busLog = [.sel 0x1122334455667788 .found, .wr 0x4E, .wr 0x4B, .wr 0x46] ∧ t.status = 0x00#8 := by decide

/-- T-W2. -/
theorem test_spwrite_device_not_found :
    let t := spwriteWith vectorParams written (prepared [.notFound] [])
    t.busLog = [.sel 0x1122334455667788 .notFound] ∧ t.status = 0x01#8 := by decide

/-- T-S1, T-S3 (the second of two in a row). -/
theorem test_spstore_again :
    let t := spstoreWith vectorParams written { prepared [.found] [] with strongPuReq := true }
    t.busLog = [.pu .weak, .sel 0x1122334455667788 .found, .wr 0x48, .pu .strong] ∧ t.status = 0x20#8 := by decide

/-- T-S2. -/
theorem test_spstore_device_not_found :
    let t := spstoreWith vectorParams written (prepared [.notFound] [])
    t.busLog = [.sel 0x1122334455667788 .notFound] ∧ t.status = 0x01#8 := by decide

/-- T-C1, T-C2: a found SPRECALL, which invalidates a verified scratchpad. -/
theorem test_sprecall_invalidates :
    let t := sprecallWith vectorParams written { prepared [.found] [] with spValid := true, tempValid := true, temp := 0xFD2B }
    t.busLog = [.sel 0x1122334455667788 .found, .wr 0xB8] ∧ t.status = 0x00#8 ∧ t.temp = 0x8000#16 := by decide

/-- T-E13: the correction truncates toward zero. -/
theorem test_tdecode_truncates_toward_zero :
    (tdecodeRun (holding #v[0x00, 0x00, 0x4B, 0x46, 0xFF, 0xFF, 0x4F, 0x33, 0x1E])).temp = 0xFFF9#16 ∧
    (tdecodeRun (holding #v[0x00, 0x00, 0x4B, 0x46, 0xFF, 0xFF, 0x4F, 0x33, 0x1E])).status = 0x18#8 := by decide

/-- T-E14 and T-E15. -/
theorem test_tdecode_failures :
    (tdecodeRun (holding #v[0x32, 0x00, 0x4B, 0x46, 0xFF, 0xFF, 0x0C, 0x00, 0xF6])).status = 0x0B#8 ∧
    (tdecodeRun State.reset).status = 0x04#8 := by decide

/-- T-E1, T-E4, T-E7, T-E8: the worked example, truncation of a negative intermediate, the maximum and the minimum. -/
theorem test_decodeTemperature :
    decodeTemperature #v[0x91, 0x01, 0x4B, 0x46, 0x7F, 0xFF, 0x0C, 0x10, 0x70] = .temperature 0xFD2B#16 ∧
    decodeTemperature #v[0x01, 0xFF, 0x4B, 0x46, 0xFF, 0xFF, 0x10, 0x10, 0xF5] = .temperature 0xFFF9#16 ∧
    decodeTemperature #v[0xFF, 0x00, 0x4B, 0x46, 0xFF, 0xFF, 0x00, 0x01, 0x42] = .temperature 0x0502#16 ∧
    decodeTemperature #v[0xFF, 0x01, 0x4B, 0x46, 0xFF, 0xFF, 0xFF, 0x01, 0xFE] = .temperature 0xF117#16 := by decide

/-- T-A1: the negative branch takes the magnitude (90_conflicts.md C5), and out-of-range values truncate. -/
theorem test_almenc :
    alarmEncode (-1) = 0x81#8 ∧ alarmEncode (-127) = 0xFF#8 ∧ alarmEncode 200 = 0x48#8 ∧ alarmEncode (-200) = 0xC8#8 ∧
    alarmEncode (-128) = 0x80#8 ∧ alarmEncode (-32768) = 0x80#8 := by decide

/-- T-A4's ALMENC -1, and T-A5 in the strict reading: half a register written is not written. -/
theorem test_almenc_runs_or_faults :
    ((nextState (execAlmenc (prepared [] []))).map (·.resByte)) = some 0x81#8 ∧
    ((nextState (strictExec .almenc (State.reset.writeOperand 0x04#6 0x05#8))).map fun t => (t.faultRec, t.resByteSet)) =
      some (some (.unwrittenOperand .almenc .argD), false) := by decide

/-- R128: in hardware the command runs with the unspecified value; the written half of `ARG_D` is what was written. -/
theorem test_almenc_unwritten_runs :
    ((nextState (execAlmenc (State.reset.writeOperand 0x04#6 0x05#8))).map fun t => (t.err, t.resByteSet, t.faultRec)) =
      some (.ok, true, some (.unwrittenOperand .almenc .argD)) ∧
    byteOf (State.reset.writeOperand 0x04#6 0x05#8).operandValues.argD 0 = 0x05#8 :=
  ⟨by decide, byteOf_fillBytes (n := 2) _ _ _ 0 (by decide)⟩

/-- T-A2: the bytes of `RES_DEG` at 0x08 and 0x09 after ALMDEC 0x81. -/
theorem test_almdec_sign_extends :
    ((nextState (execAlmdec (prepared [] []))).map fun t => (t.memRead 0x08#6, t.memRead 0x09#6)) =
      some (0xFF#8, 0xFF#8) := by decide

/-- T-A2's other corners. -/
theorem test_almdec_values :
    alarmDecode 0x80 = 0 ∧ alarmDecode 0x7F = 127 ∧ alarmDecode 0xFF = -127 ∧ alarmDecode 0x4B = 75 := by decide

/-- T-N1. -/
theorem test_nop_keeps_err :
    ((nextState (execNop { State.reset with err := .crcMismatch })).map (·.status)) = some 0x02#8 := by decide

/-! ### Steps and the window -/

/-- T-R9, in the strict reading: no log entry, no state change but the record, and nothing is admitted after it. -/
theorem test_strict_unwritten :
    strictStep (State.reset.withFetchWord 8 0x01) =
      some (.next { State.reset with faultRec := some (.unwrittenOperand .spread .addr) }) ∧
    strictStep { State.reset with faultRec := some (.unwrittenOperand .spread .addr) } = none := ⟨rfl, rfl⟩

/-- The machine runs SPREAD as the first command after reset: it selects some address, and the fault is recorded. -/
theorem test_step_unwritten :
    ((nextState (step (State.reset.withFetchWord 8 0x01))).map (·.faultRec)) =
      some (some (.unwrittenOperand .spread .addr)) := by
  rw [step_of_event (e := .write 0x00#6 0x01#8) (q := []) rfl, serve_write_cmd, writeCmd_ok (i := .spread) rfl, exec_eq]
  rcases runOf_bus_cases (i := .spread) rfl ((State.reset.withFetchWord 8 0x01).withQueue []).operandValues
      (((State.reset.withFetchWord 8 0x01).withQueue []).markUnwritten .spread) with ⟨_, e⟩ | ⟨_, h⟩
  · rw [show ((State.reset.withFetchWord 8 0x01).withQueue []) = State.reset.withQueue [] from rfl] at *
    rw [e]; rfl
  · rcases h with ⟨_, e⟩ | ⟨h, _⟩ | ⟨h, _⟩ | ⟨h, _⟩
    · rw [e, spreadFound_eq]; rfl
    · cases h
    · cases h
    · cases h

/-- P3: 0x1F is no command. -/
theorem test_step_illegal : ((nextState (step (asking [.write 0x00 0x1F]))).map (·.status)) = some 0x05#8 := by decide

/-- T-E15 as a step. -/
theorem test_step_tdecode : ((nextState (step (State.reset.withFetchWord 8 0x05))).map (·.status)) = some 0x04#8 := by
  decide

/-- T-M1. -/
theorem test_window_after_reset :
    State.reset.memRead 0x00 = 0x00#8 ∧ State.reset.memRead 0x01 = 0x00#8 ∧ State.reset.memRead 0x0A = 0x00#8 ∧
    State.reset.memRead 0x0B = 0x80#8 ∧ State.reset.memRead 0x0D = 0x00#8 ∧ State.reset.memRead 0x3F = 0x00#8 ∧
    State.reset.memRead 0x18 = Config.freeRead 0 0x18 ∧ State.reset.memRead 0x10 = Config.freeRead 0 0x10 :=
  ⟨rfl, rfl, rfl, rfl, rfl, rfl, rfl, rfl⟩

/-- T-M3: the address, lowest offset first; -10 in `ARG_D` is F6 FF. -/
theorem test_little_endian :
    ((nextState (serveAll (ScriptLine.wr .addr 0x1122334455667788).events State.reset)).map (·.operands.addr)) =
      some 0x1122334455667788#64 ∧
    (ScriptLine.wr .argD (-10)).events = [.write 0x04 0xF6, .write 0x05 0xFF] := by decide

/-! ### Witnesses: states and operands that meet the hypotheses of the statements -/

/-- Scratchpads that do and do not verify, whatever the open parameters are. -/
def goodBytes : Vector Byte 9 := #v[0x91, 0x01, 0x4B, 0x46, 0x7F, 0xFF, 0x0C, 0x10,
  crcOf Config.params #v[0x91, 0x01, 0x4B, 0x46, 0x7F, 0xFF, 0x0C, 0x10, 0]]
def badBytes : Vector Byte 9 := #v[0x91, 0x01, 0x4B, 0x46, 0x7F, 0xFF, 0x0C, 0x10,
  crcOf Config.params #v[0x91, 0x01, 0x4B, 0x46, 0x7F, 0xFF, 0x0C, 0x10, 0] + 1]

theorem byte_ne_add_one : ∀ b : Byte, b ≠ b + 1 := by decide

theorem witness_goodBytes : crcOf Config.params goodBytes = goodBytes[8] ∧ goodBytes[7] ≠ 0x00#8 := ⟨rfl, by decide⟩
theorem witness_badBytes : crcOf Config.params badBytes ≠ badBytes[8] := byte_ne_add_one _

theorem witness_StepRunsTheDecodedCommand :
    (asking [.write 0x00#6 0x07#8]).host.queue = .write 0x00#6 0x07#8 :: [] ∧ decode 0x07#8 = .ok .almdec ∧
    decode (BitVec.ofNat 8 0x01) = .ok .spread := ⟨rfl, rfl, rfl⟩

theorem witness_ReservedCommandBytes :
    (asking [.write 0x00#6 0x08#8]).host.queue = .write 0x00#6 0x08#8 :: [] ∧ 8 ≤ (0x08#8 |>.extractLsb' 0 4).toNat ∧
    8 ≤ (0x0F#8 |>.extractLsb' 0 4).toNat ∧ (0x10#8 |>.extractLsb' 4 4) ≠ 0#4 ∧
    (0xF0#8 |>.extractLsb' 4 4) ≠ 0#4 := by decide

theorem witness_IdleBlockWaits : State.reset.host.queue = [] := rfl

theorem witness_ProtocolViolations :
    (asking [.wide 0x04#6 2]).host.queue = .wide 0x04#6 2 :: [] ∧
    (asking [.overlapping 0x01#6]).host.queue = .overlapping 0x01#6 :: [] := ⟨rfl, rfl⟩

theorem witness_UnwrittenOperand :
    OperandReg.argLo ∈ operandsOf .spwrite ∧
    ({ prepared [] [] with operands :=
      { (prepared [] []).operands with written := { (prepared [] []).operands.written with argLo := false } } } :
        State).operands.isWritten .argLo = false ∧ State.reset.operands.isWritten .addr = false ∧
    State.reset.faultRec = none ∧ ¬ OperandsReady .spread State.reset := by
  unfold OperandsReady; decide

theorem witness_operands_written : ∀ i, OperandsReady i (prepared [] []) := by
  intro i; cases i <;> unfold OperandsReady <;> decide

theorem witness_bus_not_found :
    (prepared [.notFound] []).operands.isWritten .addr = true ∧ (prepared [.notFound] []).selectAnswer = .notFound ∧
    isBusCommand .spread = true := ⟨rfl, rfl, rfl⟩

theorem witness_bus_found :
    (prepared [.found] []).operands.isWritten .addr = true ∧ (prepared [.found] []).selectAnswer = .found :=
  ⟨rfl, rfl⟩

theorem witness_received_good :
    (prepared [.found] goodBytes.toList).selectAnswer = .found ∧
    crcOf Config.params (receivedBytes (prepared [.found] goodBytes.toList)) =
      (receivedBytes (prepared [.found] goodBytes.toList))[8] ∧
    (receivedBytes (prepared [.found] goodBytes.toList))[7] ≠ 0x00#8 := ⟨rfl, rfl, by decide⟩

theorem witness_received_bad :
    (prepared [.found] badBytes.toList).selectAnswer = .found ∧
    crcOf Config.params (receivedBytes (prepared [.found] badBytes.toList)) ≠
      (receivedBytes (prepared [.found] badBytes.toList))[8] := ⟨rfl, byte_ne_add_one _⟩

theorem witness_FaultRecordIsSticky :
    let s : State := { asking [.reset] with faultRec := some (.unwrittenOperand .almdec .argB) }
    (nextState (step s)).isSome = true ∧ s.faultRec = some (.unwrittenOperand .almdec .argB) := by decide

theorem witness_StrictSteps :
    (nextState (step (asking [.write 0x00#6 0x05#8]))).map (·.faultRec) = some none ∧
    (asking [.write 0x00#6 0x05#8]).faultRec = none := by decide

theorem witness_TdecodeComputesTheFormula :
    State.reset.spValid = false ∧ ((holding (Vector.replicate 9 0)).spValid = true ∧
      (holding (Vector.replicate 9 0)).sp[7] = 0x00#8) ∧
    (holding #v[0, 0, 0, 0, 0, 0, 0xFF, 0x01, 0]).sp[7] ≠ 0x00#8 := by decide

theorem witness_Almenc_signs :
    (prepared [] []).operands.isWritten .argD = true ∧ (prepared [] []).operands.argD.toInt < 0 ∧
    0 ≤ State.reset.operands.argD.toInt := by decide

theorem witness_Almdec : (prepared [] []).operands.isWritten .argB = true := rfl

theorem witness_EachError :
    exec .tdecode (holding (Vector.replicate 9 0)) = .next (tdecodeRun (holding (Vector.replicate 9 0))) := rfl

theorem witness_CorruptedNinthByte :
    (prepared [.found] goodBytes.toList).driver.bytes = goodBytes.toList ++ [] ∧ goodBytes[8] + 1 ≠ goodBytes[8] :=
  ⟨by simp [prepared], (byte_ne_add_one _).symm⟩

theorem witness_TdecodeReadsOnlyItsFields :
    let b : Vector Byte 9 := #v[0, 0x80, 7, 7, 7, 7, 3, 4, 9]
    let s := holding #v[0, 0x01, 1, 2, 5, 6, 3, 4, 8]
    b[0] = s.sp[0] ∧ (b[1] = 0x00#8 ↔ s.sp[1] = 0x00#8) ∧ b[6] = s.sp[6] ∧ b[7] = s.sp[7] ∧ b ≠ s.sp := by decide

theorem witness_RepeatedDecode :
    (∀ e ∈ [HostEvent.write 0x00#6 0x06#8, .read 0x0A#6, .write 0x04#6 0x01#8], e ≠ .reset) ∧
    decode 0x06#8 = .ok .almenc ∧ isBusCommand .almenc = false ∧
    ((nextState (exec .tdecode (prepared [] []))).bind fun t =>
      nextState (serveAll [.write 0x00#6 0x06#8, .read 0x0A#6, .write 0x04#6 0x01#8] t)).isSome = true := by
  refine ⟨by decide, rfl, rfl, rfl⟩

theorem witness_DecodeIntermediates :
    (#v[0, 0, 0, 0, 0, 0, 0, 0x01, 0] : Vector Byte 9)[7] ≠ 0x00#8 ∧
    (#v[0, 0, 0, 0, 0, 0, 0xFF, 0x01, 0] : Vector Byte 9)[6] = 0xFF#8 := by decide

theorem witness_AlarmRoundTrip : (-32768 : Int) ≤ -127 ∧ (128 : Int) ≤ 32767 := by decide

theorem witness_exec_answers : ∀ i, (nextState (exec i (prepared [.found] []))).isSome = true := by
  intro i; cases i <;> rfl

theorem witness_PullUpLasts :
    let s : State := { asking [.read 0x01#6] with strongPuReq := true }
    s.host.queue = .read 0x01#6 :: [] ∧ (nextState (step s)).isSome = true ∧ HostEvent.read 0x01#6 ≠ .reset := by decide

theorem witness_CommandsLeaveOtherWindowBytes :
    0x02#6 ∉ mayChange .spread ∧ (prepared [] []).specified (locate 0x02#6) = true ∧ 0x3F#6 ∉ mayChange .spread ∧
    0x18#6 ∈ mayChange .spwrite ∧ 0x20#6 ∈ mayChange .spwrite := by decide

theorem witness_WindowReads :
    ((0x0D#6).toNat = 0x0D ∧ (0x0F#6).toNat = 0x0F) ∧ 0x21 ≤ (0x21#6).toNat ∧ 0x21 ≤ (0x3F#6).toNat ∧
    (holding goodBytes).spValid = true ∧ (almencRun written State.reset).resByteSet = true ∧
    (almdecRun written State.reset).resDegSet = true ∧ (spreadCheck 0 State.reset).crcCalcSet = true ∧
    (prepared [] []).operands.written.argHi = true ∧ (prepared [] []).operands.written.argLo = true ∧
    (prepared [] []).operands.written.argB = true ∧ (prepared [] []).operands.written.argD[(1 : Fin 2)] = true ∧
    (prepared [] []).operands.written.addr[(7 : Fin 8)] = true := ⟨by decide, by decide, by decide, rfl, rfl, rfl,
      by decide, rfl, rfl, rfl, rfl, rfl⟩

theorem witness_HostReads : (asking [.read 0x3F#6]).host.queue = .read 0x3F#6 :: [] := rfl

theorem witness_ReadOnlyWrites :
    (asking [.write 0x3F#6 0x55#8]).host.queue = .write 0x3F#6 0x55#8 :: [] ∧
    (∀ off ∈ [0x07#6, 0x0F#6], 0x07 ≤ off.toNat ∧ off.toNat ≤ 0x0F) ∧
    (∀ off ∈ [0x18#6, 0x20#6, 0x21#6, 0x3F#6], 0x18 ≤ off.toNat) := by decide

theorem witness_OperandWrites :
    (asking [.write 0x17#6 0x55#8]).host.queue = .write 0x17#6 0x55#8 :: [] ∧
    (∀ off ∈ [0x02#6, 0x06#6], 0x02 ≤ off.toNat ∧ off.toNat ≤ 0x06) ∧
    (∀ off ∈ [0x10#6, 0x17#6], 0x10 ≤ off.toNat ∧ off.toNat ≤ 0x17) := by decide

theorem witness_OperandsStayWritten :
    let s : State := { prepared [] [] with host := { queue := [.write 0x10#6 0], reads := [] } }
    s.host.queue = .write 0x10#6 0 :: [] ∧ (nextState (step s)).isSome = true ∧ s.operands.isWritten .addr = true := by
  decide

theorem witness_WindowBase : (Config.windowBase + 64 ≤ Config.windowBase + 64) ∧ 63 < 64 := ⟨le_refl _, by decide⟩

theorem witness_PlatformReset : (asking [.reset]).host.queue = .reset :: [] := rfl

/-- A sound state other than reset: a verified, decoded scratchpad and the log that delivered it. -/
def soundState : State :=
  { holding goodBytes with
    tempValid := true
    temp := 0xFD2B
    crcCalc := goodBytes[8]
    crcCalcSet := true
    busLog := spreadEntries 0x1122334455667788 goodBytes
    host := { queue := [.write 0x00#6 0x05#8], reads := [] } }

theorem witness_StepKeepsSound : Sound soundState ∧ (nextState (step soundState)).isSome = true := by
  refine ⟨⟨by decide, fun _ => ⟨rfl, rfl⟩, fun _ => ⟨rfl, rfl, rfl⟩, fun _ => ⟨[], 0x1122334455667788, rfl⟩, ?_, ?_, ?_⟩,
    rfl⟩
  · simp [soundState, holding, State.reset, spreadEntries, pullLevel, pullRequests, goodBytes]
  · simp [soundState, spreadEntries, pullsAlternate, pullRequests, goodBytes]
  · simp [soundState, holding, State.reset]

theorem witness_UnspecifiedResults :
    let s : State := State.reset.writeOperand 0x04#6 0x05#8
    let t : State := { s with
      operands := { s.operands with addr := 7, argHi := 8, argLo := 9, argD := 0x1205, argB := 10 }
      sp := Vector.replicate 9 0x55, crcCalc := 1, resByte := 2, resDeg := 3 }
    hideUnspecified s = hideUnspecified t ∧ s ≠ t := by decide

theorem witness_Readtemp :
    (Pseudo.readtemp 0).wellFormed = true ∧ (Pseudo.readtemp (2 ^ 64 - 1)).wellFormed = true ∧
    (prepared [.notFound] []).selectAnswer = .notFound := by decide

theorem witness_Thresholds : WinReg.addr.fits 0 = true ∧ WinReg.addr.fits (2 ^ 64 - 1) = true ∧
    (prepared [.found] goodBytes.toList).selectAnswer = .found := ⟨by decide, by decide, rfl⟩

end Sys2Proof.Tests
end

/-! PROOFS. The statements about the scope (spec 00_scope.md): reset, completion, and READTEMP's failures. -/

namespace Sys2Proof.Proofs

open Sys2Proof.Machine Sys2Proof.Safety

/-! ### Completion -/

/-- Settles O49: `exec_eq` names the next state of every command. -/
theorem everyCommandCompletes : Obligations.EveryCommandCompletes := fun i s => ⟨_, exec_eq i s⟩

/-! ### Reset -/

/-- No operand register counts as written at reset (R38). -/
theorem isWritten_reset (r : OperandReg) : State.reset.operands.isWritten r = false := by
  cases r <;> rfl

theorem written_argD_reset (k : Fin 2) : State.reset.operands.written.argD[k] = false := by
  simp [State.reset, WrittenFlags.none]

theorem written_addr_reset (k : Fin 8) : State.reset.operands.written.addr[k] = false := by
  simp [State.reset, WrittenFlags.none]

/-- Settles O36: the fixed fields evaluate, and the flags are clear register by register and byte by byte. -/
theorem resetValues : Obligations.ResetValues :=
  ⟨rfl, rfl, rfl, rfl, rfl, rfl, rfl, isWritten_reset, rfl, rfl, rfl, written_argD_reset, written_addr_reset,
    rfl, rfl, rfl⟩

/-! ### SPREAD on every path: the flags it leaves and what it leaves to the host -/

/-- The selection takes no byte, so the bytes still to come are those the SPREAD receives (R75). -/
@[simp] theorem nineAnswers_afterSelect (a : Addr) (s : State) : nineAnswers (afterSelect a s) = receivedBytes s :=
  nineAnswers_congr rfl rfl

theorem runOf_spread_notFound (o : OperandRegs) {s : State} (h : s.selectAnswer = .notFound) :
    runOf .spread o s = (afterSelect o.addr s).report .deviceNotFound :=
  selectDevice_prologue_notFound h

theorem runOf_spread_found (o : OperandRegs) {s : State} (h : s.selectAnswer = .found) :
    runOf .spread o s = spreadFound Config.params (afterSelect o.addr s) :=
  selectDevice_prologue_found h

@[simp] theorem runOf_spread_host (o : OperandRegs) (s : State) : (runOf .spread o s).host = s.host := by
  cases h : s.selectAnswer
  · simp [runOf_spread_found o h, spreadFound_eq]
  · simp [runOf_spread_notFound o h]

@[simp] theorem runOf_spread_strongPuReq (o : OperandRegs) (s : State) :
    (runOf .spread o s).strongPuReq = false := by
  cases h : s.selectAnswer
  · simp [runOf_spread_found o h, spreadFound_eq]
  · simp [runOf_spread_notFound o h]

/-- SPREAD leaves a valid scratchpad exactly when the device answered and its nine bytes verify (R27, R75). -/
theorem runOf_spread_spValid_iff (o : OperandRegs) (s : State) :
    (runOf .spread o s).spValid = true ↔
      s.selectAnswer = .found ∧ crcOf Config.params (receivedBytes s) = (receivedBytes s)[8] := by
  cases h : s.selectAnswer
  · simp [runOf_spread_found o h, spreadFound_eq]
  · simp [runOf_spread_notFound o h]

/-! ### READTEMP, line by line (R70) -/

/-- The state after the host has written all eight bytes of `ADDR` (R63). -/
def withAddr (a : Int) (s : State) : State :=
  { s with
    operands :=
      { s.operands with
        addr := BitVec.ofInt 64 a
        written := { s.operands.written with addr := Vector.replicate 8 true } } }

@[simp] theorem withAddr_host (a : Int) (s : State) : (withAddr a s).host = s.host := rfl
@[simp] theorem withAddr_selectAnswer (a : Int) (s : State) : (withAddr a s).selectAnswer = s.selectAnswer := rfl
@[simp] theorem withAddr_receivedBytes (a : Int) (s : State) : receivedBytes (withAddr a s) = receivedBytes s := rfl

theorem operandsReady_spread_withAddr (a : Int) (s : State) : OperandsReady .spread (withAddr a s) := by
  intro r hr
  obtain rfl : r = .addr := by simpa [operandsOf] using hr
  rfl

/-- READTEMP's two commands: SPREAD of the address just written, then TDECODE of what it left. -/
def afterReadtempCommands (a : Int) (s : State) : State :=
  tdecodeRun (runOf .spread (withAddr a s).operands (withAddr a s))

/-- What the host does at READTEMP's end: it reads `STATUS`, then `TEMP` low byte first. -/
def answerStatusAndTemp (s : State) : State := ((s.answerRead 0x01#6).answerRead 0x0A#6).answerRead 0x0B#6

theorem serveAll_rd_status_temp (s : State) :
    serveAll ((ScriptLine.rd .status).events ++ (ScriptLine.rd .temp).events) s = .next (answerStatusAndTemp s) := rfl

/-- READTEMP always completes: the writes of `ADDR`, the two commands, the three reads. -/
theorem serveAll_readtemp (a : Int) (s : State) :
    serveAll (Pseudo.readtemp a).events s = .next (answerStatusAndTemp (afterReadtempCommands a s)) := by
  have hwr : serveAll (ScriptLine.wr .addr a).events s = .next (withAddr a s) := serveAll_wr_addr s a
  have hspread := (serveAll_command (i := .spread) rfl).trans (exec_of_ready (operandsReady_spread_withAddr a s))
  have htdecode : serveAll (ScriptLine.command .tdecode).events
      (runOf .spread (withAddr a s).operands (withAddr a s)) = .next (afterReadtempCommands a s) :=
    (serveAll_command (i := .tdecode) rfl).trans (exec_of_no_operands rfl _)
  have hevents : (Pseudo.readtemp a).events = (ScriptLine.wr .addr a).events ++
      ((ScriptLine.command .spread).events ++ ((ScriptLine.command .tdecode).events ++
        ((ScriptLine.rd .status).events ++ (ScriptLine.rd .temp).events))) := by
    simp [Pseudo.events, Pseudo.expand]
  rw [hevents, serveAll_append hwr, serveAll_append hspread, serveAll_append htdecode, serveAll_rd_status_temp]

/-- `STATUS` and `TEMP` always have a value, so the three reads give what is held (R41, R44). -/
theorem answerStatusAndTemp_reads (s : State) :
    (answerStatusAndTemp s).host.reads =
      s.host.reads ++ [(0x01#6, s.status), (0x0A#6, byteOf s.temp 0), (0x0B#6, byteOf s.temp 1)] := by
  have hstatus : s.memRead 0x01#6 = s.status := rfl
  have hlow : (s.answerRead 0x01#6).memRead 0x0A#6 = byteOf s.temp 0 := rfl
  have hhigh : ((s.answerRead 0x01#6).answerRead 0x0A#6).memRead 0x0B#6 = byteOf s.temp 1 := rfl
  simp [answerStatusAndTemp, hstatus, hlow, hhigh]

@[simp] theorem answerStatusAndTemp_tempValid (s : State) : (answerStatusAndTemp s).tempValid = s.tempValid := rfl

/-! ### READTEMP's failures -/

/-- A scratchpad that did not verify is not decoded (R109). -/
theorem tdecodeRun_of_not_spValid {s : State} (h : s.spValid = false) :
    tdecodeRun s = s.decodeFailed .noValidScratchpad := by
  simp [tdecodeRun, h]

/-- `STATUS` after TDECODE found no valid scratchpad: every flag is 0 beside the error code 4 (R25, R26). -/
theorem status_decodeFailed_noValidScratchpad {s : State} (hsp : s.spValid = false) (hpu : s.strongPuReq = false) :
    (s.decodeFailed .noValidScratchpad).status = 0x04#8 := by
  simp [State.status, hsp, hpu, ErrCode.code]

/-- Both failures of READTEMP leave `SP_VALID` = 0, and from there TDECODE fails in one way (R123). -/
theorem afterReadtempCommands_of_failure (a : Int) {s : State}
    (h : s.selectAnswer = .notFound ∨ crcOf Config.params (receivedBytes s) ≠ (receivedBytes s)[8]) :
    ∃ u : State, afterReadtempCommands a s = u.decodeFailed .noValidScratchpad ∧
      u.spValid = false ∧ u.strongPuReq = false ∧ u.host = s.host := by
  have hsp : (runOf .spread (withAddr a s).operands (withAddr a s)).spValid = false := by
    rw [← Bool.not_eq_true, runOf_spread_spValid_iff, withAddr_selectAnswer, withAddr_receivedBytes]
    rintro ⟨hfound, hcrc⟩
    rcases h with hnot | hbad
    · simp [hfound] at hnot
    · exact hbad hcrc
  exact ⟨_, tdecodeRun_of_not_spValid hsp, hsp, by simp, by simp⟩

/-- Settles O41: either failure ends in TDECODE's failure without a valid scratchpad, whose status and sentinel the
host reads. -/
theorem readtempFailuresLookAlike : Obligations.ReadtempFailuresLookAlike := by
  intro s a _ hfail
  obtain ⟨u, hu, hsp, hpu, hhost⟩ := afterReadtempCommands_of_failure a hfail
  refine ⟨_, serveAll_readtemp a s, ?_, ?_⟩
  · simp [hu]
  · have hlow : byteOf Config.tempSentinel 0 = 0x00#8 := by decide
    have hhigh : byteOf Config.tempSentinel 1 = 0x80#8 := by decide
    rw [hu, answerStatusAndTemp_reads, status_decodeFailed_noValidScratchpad hsp hpu, decodeFailed_temp,
      decodeFailed_host, hhost, hlow, hhigh]

end Sys2Proof.Proofs

/-! PROOFS. What commands leave unchanged, said once for every command (spec 10_state.md R18, R30 to R35, R40, R46). -/

namespace Sys2Proof.Proofs

open Sys2Proof.Machine Sys2Proof.Safety

theorem eq_runOf_of_exec {i : Instr} {s t : State} (h : exec i s = .next t) :
    t = runOf i s.operandValues (s.markUnwritten i) := by
  rw [exec_eq] at h
  exact (Host.Outcome.next.inj h).symm

/-! ### A bus command once its device is found -/

theorem spwriteFound_eq (p : Params) (h l : Byte) (s : State) :
    spwriteFound p h l s =
      { s with err := .ok, busLog := s.busLog ++ [.wr p.opWriteSp, .wr h, .wr l] } := by
  simp [spwriteFound, State.logEvent, State.report]

theorem spstoreFound_eq (p : Params) (s : State) :
    spstoreFound p s =
      { s with err := .ok, strongPuReq := true, busLog := s.busLog ++ [.wr p.opCopySp, .pu .strong] } := by
  simp [spstoreFound, State.logEvent, State.report]

theorem sprecallFound_eq (p : Params) (s : State) :
    sprecallFound p s = { s with err := .ok, busLog := s.busLog ++ [.wr p.opRecallEe] } := rfl

/-- A bus command's own requests, after its device is found (R75, R81, R84, R87); a local command has none. -/
def foundOf (i : Instr) (o : OperandRegs) (s : State) : State :=
  match i with
  | .spread => spreadFound Config.params s
  | .spwrite => spwriteFound Config.params o.argHi o.argLo s
  | .spstore => spstoreFound Config.params s
  | .sprecall => sprecallFound Config.params s
  | .nop | .tdecode | .almenc | .almdec => s

theorem runOf_bus_notFound {i : Instr} (hb : isBusCommand i = true) (o : OperandRegs) {s : State}
    (h : s.selectAnswer = .notFound) : runOf i o s = (afterSelect o.addr s).report .deviceNotFound := by
  rcases runOf_bus_cases hb o s with ⟨_, hrun⟩ | ⟨hfound, _⟩
  · exact hrun
  · rw [h] at hfound; cases hfound

theorem runOf_bus_found {i : Instr} (hb : isBusCommand i = true) (o : OperandRegs) {s : State}
    (h : s.selectAnswer = .found) : runOf i o s = foundOf i o (afterSelect o.addr s) := by
  rcases runOf_bus_cases hb o s with ⟨hnot, _⟩ | ⟨_, ⟨rfl, hrun⟩ | ⟨rfl, hrun⟩ | ⟨rfl, hrun⟩ | ⟨rfl, hrun⟩⟩
  · rw [h] at hnot; cases hnot
  all_goals exact hrun

/-- A bus command ends right after a failed selection, or goes on with its own requests (R118). -/
theorem runOf_bus_split {i : Instr} (hb : isBusCommand i = true) (o : OperandRegs) (s : State) :
    (s.selectAnswer = .notFound ∧ runOf i o s = (afterSelect o.addr s).report .deviceNotFound) ∨
    (s.selectAnswer = .found ∧ runOf i o s = foundOf i o (afterSelect o.addr s)) := by
  cases hs : s.selectAnswer
  · exact .inr ⟨rfl, runOf_bus_found hb o hs⟩
  · exact .inl ⟨rfl, runOf_bus_notFound hb o hs⟩

/-! ### What surrounds the block: operand registers, fault record, host -/

/-- The same block with other operand registers, another fault record and another host. -/
def withSurroundings (o : OperandRegs) (f : Option ModelFault) (h : HostPort) (s : State) : State :=
  { s with operands := o, faultRec := f, host := h }

theorem foundOf_withSurroundings (i : Instr) (v o : OperandRegs) (f : Option ModelFault) (h : HostPort) (s : State) :
    foundOf i v (withSurroundings o f h s) = withSurroundings o f h (foundOf i v s) := by
  have hnine : nineAnswers (withSurroundings o f h s) = nineAnswers s := rfl
  cases i
  case spread => simp only [foundOf, spreadFound_eq, hnine]; rfl
  case spwrite => simp only [foundOf, spwriteFound_eq]; rfl
  case spstore => simp only [foundOf, spstoreFound_eq]; rfl
  all_goals rfl

theorem tdecodeRun_withSurroundings (o : OperandRegs) (f : Option ModelFault) (h : HostPort) (s : State) :
    tdecodeRun (withSurroundings o f h s) = withSurroundings o f h (tdecodeRun s) := by
  have hsp : (withSurroundings o f h s).spValid = s.spValid := rfl
  have hdecode : decodeTemperature (withSurroundings o f h s).sp = decodeTemperature s.sp := rfl
  cases hv : s.spValid
  · rw [tdecodeRun_of_not_spValid hv, tdecodeRun_of_not_spValid (hsp.trans hv)]; rfl
  · cases hd : decodeTemperature s.sp <;> simp only [tdecodeRun, hsp, hdecode, hv, hd] <;> rfl

/-- Beside the operand values it has read, a command neither reads nor writes the operand registers, the fault record
and the host (R18, R40, R46). -/
theorem runOf_withSurroundings (i : Instr) (v o : OperandRegs) (f : Option ModelFault) (h : HostPort) (s : State) :
    runOf i v (withSurroundings o f h s) = withSurroundings o f h (runOf i v s) := by
  have hsel : (withSurroundings o f h s).selectAnswer = s.selectAnswer := rfl
  have hafter : afterSelect v.addr (withSurroundings o f h s) = withSurroundings o f h (afterSelect v.addr s) := rfl
  cases hb : isBusCommand i
  · cases i
    case tdecode => exact tdecodeRun_withSurroundings o f h s
    case nop | almenc | almdec => rfl
    all_goals cases hb
  · rcases runOf_bus_split hb v s with ⟨hs, hrun⟩ | ⟨hs, hrun⟩
    · rw [hrun, runOf_bus_notFound hb v (hsel.trans hs), hafter]; rfl
    · rw [hrun, runOf_bus_found hb v (hsel.trans hs), hafter, foundOf_withSurroundings]

@[simp] theorem runOf_operands (i : Instr) (v : OperandRegs) (s : State) : (runOf i v s).operands = s.operands :=
  (congrArg State.operands (runOf_withSurroundings i v s.operands s.faultRec s.host s) :)

@[simp] theorem runOf_faultRec (i : Instr) (v : OperandRegs) (s : State) : (runOf i v s).faultRec = s.faultRec :=
  (congrArg State.faultRec (runOf_withSurroundings i v s.operands s.faultRec s.host s) :)

@[simp] theorem runOf_host (i : Instr) (v : OperandRegs) (s : State) : (runOf i v s).host = s.host :=
  (congrArg State.host (runOf_withSurroundings i v s.operands s.faultRec s.host s) :)

/-! ### Which registers a command can write (R30 to R35) -/

/-- TDECODE writes `TEMP`, `TEMP_VALID` and `ERR` only (R109). -/
theorem tdecodeRun_eq_update (s : State) :
    tdecodeRun s =
      { s with temp := (tdecodeRun s).temp, tempValid := (tdecodeRun s).tempValid, err := (tdecodeRun s).err } := by
  rcases tdecodeRun_cases s with ⟨_, hrun⟩ | ⟨_, _, hrun⟩ | ⟨t, _, _, hrun⟩ <;> rw [hrun] <;> rfl

/-- A local command writes `ERR`, `TEMP`, `TEMP_VALID`, `RES_BYTE` and `RES_DEG` only (R98, R100, R103, R109). -/
theorem runOf_local_eq_update {i : Instr} (hb : isBusCommand i = false) (o : OperandRegs) (s : State) :
    runOf i o s =
      { s with
        err := (runOf i o s).err
        temp := (runOf i o s).temp
        tempValid := (runOf i o s).tempValid
        resByte := (runOf i o s).resByte
        resByteSet := (runOf i o s).resByteSet
        resDeg := (runOf i o s).resDeg
        resDegSet := (runOf i o s).resDegSet } := by
  cases i
  case tdecode => simp only [runOf]; rw [tdecodeRun_eq_update s]
  case nop | almenc | almdec => rfl
  all_goals cases hb

/-- After its selection a bus command writes neither `TEMP` nor `RES_BYTE` nor `RES_DEG`. -/
theorem foundOf_eq_update (i : Instr) (o : OperandRegs) (s : State) :
    foundOf i o s =
      { s with
        err := (foundOf i o s).err
        spValid := (foundOf i o s).spValid
        strongPuReq := (foundOf i o s).strongPuReq
        sp := (foundOf i o s).sp
        crcCalc := (foundOf i o s).crcCalc
        crcCalcSet := (foundOf i o s).crcCalcSet
        busLog := (foundOf i o s).busLog
        driver := (foundOf i o s).driver
        fresh := (foundOf i o s).fresh } := by
  cases i
  case spread => simp only [foundOf, spreadFound_eq]
  case spwrite => simp only [foundOf, spwriteFound_eq]
  case spstore => simp only [foundOf, spstoreFound_eq]
  all_goals rfl

/-- A bus command leaves `TEMP` the sentinel with `TEMP_VALID` = 0, and `RES_BYTE` and `RES_DEG` as they were
(R34, R35, R73). -/
theorem runOf_bus_results {i : Instr} (hb : isBusCommand i = true) (o : OperandRegs) (s : State) :
    (runOf i o s).temp = Config.tempSentinel ∧ (runOf i o s).tempValid = false ∧
    (runOf i o s).resByte = s.resByte ∧ (runOf i o s).resByteSet = s.resByteSet ∧
    (runOf i o s).resDeg = s.resDeg ∧ (runOf i o s).resDegSet = s.resDegSet := by
  rcases runOf_bus_split hb o s with ⟨_, hrun⟩ | ⟨_, hrun⟩ <;> rw [hrun]
  · exact ⟨rfl, rfl, rfl, rfl, rfl, rfl⟩
  · rw [foundOf_eq_update]
    exact ⟨rfl, rfl, rfl, rfl, rfl, rfl⟩

/-- A local command makes no bus request and touches neither the pull-up nor the scratchpad (R29, R30, R33). -/
theorem runOf_local_bus {i : Instr} (hb : isBusCommand i = false) (o : OperandRegs) (s : State) :
    (runOf i o s).busLog = s.busLog ∧ (runOf i o s).driver = s.driver ∧ (runOf i o s).fresh = s.fresh ∧
    (runOf i o s).strongPuReq = s.strongPuReq ∧ (runOf i o s).sp = s.sp ∧ (runOf i o s).spValid = s.spValid := by
  rw [runOf_local_eq_update hb]
  exact ⟨rfl, rfl, rfl, rfl, rfl, rfl⟩

/-- Only SPREAD writes `CRC_CALC` (R31). -/
theorem runOf_crcCalc {i : Instr} (h : i ≠ .spread) (o : OperandRegs) (s : State) :
    (runOf i o s).crcCalc = s.crcCalc ∧ (runOf i o s).crcCalcSet = s.crcCalcSet := by
  cases hb : isBusCommand i
  · rw [runOf_local_eq_update hb]
    exact ⟨rfl, rfl⟩
  · rcases runOf_bus_split hb o s with ⟨_, hrun⟩ | ⟨_, hrun⟩ <;> rw [hrun]
    · exact ⟨rfl, rfl⟩
    · cases i
      case spread => exact absurd rfl h
      all_goals exact ⟨rfl, rfl⟩

/-- Only ALMENC writes `RES_BYTE` (R34). -/
theorem runOf_resByte {i : Instr} (h : i ≠ .almenc) (o : OperandRegs) (s : State) :
    (runOf i o s).resByte = s.resByte ∧ (runOf i o s).resByteSet = s.resByteSet := by
  cases hb : isBusCommand i
  · cases i
    case almenc => exact absurd rfl h
    case tdecode => simp only [runOf]; rw [tdecodeRun_eq_update]; exact ⟨rfl, rfl⟩
    case nop | almdec => exact ⟨rfl, rfl⟩
    all_goals cases hb
  · obtain ⟨_, _, hbyte, hset, _⟩ := runOf_bus_results hb o s
    exact ⟨hbyte, hset⟩

/-- Only ALMDEC writes `RES_DEG` (R35). -/
theorem runOf_resDeg {i : Instr} (h : i ≠ .almdec) (o : OperandRegs) (s : State) :
    (runOf i o s).resDeg = s.resDeg ∧ (runOf i o s).resDegSet = s.resDegSet := by
  cases hb : isBusCommand i
  · cases i
    case almdec => exact absurd rfl h
    case tdecode => simp only [runOf]; rw [tdecodeRun_eq_update]; exact ⟨rfl, rfl⟩
    case nop | almenc => exact ⟨rfl, rfl⟩
    all_goals cases hb
  · obtain ⟨_, _, _, _, hdeg, hset⟩ := runOf_bus_results hb o s
    exact ⟨hdeg, hset⟩

/-- A local command other than TDECODE keeps `TEMP` (R32). -/
theorem runOf_temp {i : Instr} (hb : isBusCommand i = false) (h : i ≠ .tdecode) (o : OperandRegs) (s : State) :
    (runOf i o s).temp = s.temp ∧ (runOf i o s).tempValid = s.tempValid := by
  cases i
  case tdecode => exact absurd rfl h
  case nop | almenc | almdec => exact ⟨rfl, rfl⟩
  all_goals cases hb

/-- Everything a local command can do. -/
theorem runOf_local_cases {i : Instr} (hb : isBusCommand i = false) (o : OperandRegs) (s : State) :
    runOf i o s = s ∨ runOf i o s = tdecodeRun s ∨ runOf i o s = almencRun o s ∨ runOf i o s = almdecRun o s := by
  cases i
  case nop => exact .inl rfl
  case tdecode => exact .inr (.inl rfl)
  case almenc => exact .inr (.inr (.inl rfl))
  case almdec => exact .inr (.inr (.inr rfl))
  all_goals cases hb

/-! ### The bus traffic of a bus command (R33, R53, R54) -/

/-- After the selection a bus command only appends to the log, and neither selects again nor asks for weak pull-up. -/
theorem foundOf_busLog (i : Instr) (o : OperandRegs) (s : State) :
    ∃ es, (foundOf i o s).busLog = s.busLog ++ es ∧ (∀ a r, BusEvent.sel a r ∉ es) ∧ .pu .weak ∉ es := by
  cases i
  case spread => exact ⟨_, by rw [foundOf, spreadFound_eq], by simp, by simp⟩
  case spwrite => exact ⟨_, by rw [foundOf, spwriteFound_eq], by simp, by simp⟩
  case spstore => exact ⟨_, by rw [foundOf, spstoreFound_eq], by simp, by simp⟩
  case sprecall => exact ⟨_, by rw [foundOf, sprecallFound_eq], by simp, by simp⟩
  all_goals exact ⟨[], by simp [foundOf], by simp, by simp⟩

theorem runOf_bus_busLog {i : Instr} (hb : isBusCommand i = true) (o : OperandRegs) (s : State) :
    ∃ es, (runOf i o s).busLog = s.busLog ++ releaseEntries s.strongPuReq ++ .sel o.addr s.selectAnswer :: es ∧
      (∀ a r, BusEvent.sel a r ∉ es) ∧ .pu .weak ∉ es := by
  rcases runOf_bus_split hb o s with ⟨_, hrun⟩ | ⟨_, hrun⟩ <;> rw [hrun]
  · exact ⟨[], by simp, by simp, by simp⟩
  · obtain ⟨es, hlog, hsel, hweak⟩ := foundOf_busLog i o (afterSelect o.addr s)
    exact ⟨es, by simp [hlog], hsel, hweak⟩

end Sys2Proof.Proofs

/-! PROOFS. The invariant Sound (spec 10_state.md R27 to R35, R54, R115): it holds at reset and every step keeps it. -/

namespace Sys2Proof.Proofs

open Sys2Proof.Machine Sys2Proof.Safety

/-! ### The pull-up requests of a log -/

@[simp] theorem pullRequests_append (l m : List BusEvent) :
    pullRequests (l ++ m) = pullRequests l ++ pullRequests m := by
  simp [pullRequests]

/-- A log that ends in a pull-up request leaves that level. -/
theorem pullLevel_append_pu (log : List BusEvent) (l : PullLevel) : pullLevel (log ++ [.pu l]) = l := by
  simp [pullLevel, pullRequests]

/-- Entries that are no pull-up requests leave the level and the alternation alone. -/
theorem pullLevel_append_of_none {es : List BusEvent} (h : pullRequests es = []) (log : List BusEvent) :
    pullLevel (log ++ es) = pullLevel log := by
  simp [pullLevel, h]

theorem pullsAlternate_append_of_none {es : List BusEvent} (h : pullRequests es = []) {log : List BusEvent}
    (hlog : pullsAlternate log) : pullsAlternate (log ++ es) := by
  simpa [pullsAlternate, h] using hlog

/-- A request for a level other than the last one keeps the alternation (R54). -/
theorem pullsAlternate_append_pu {log : List BusEvent} {l : PullLevel} (hlog : pullsAlternate log)
    (h : pullLevel log ≠ l) : pullsAlternate (log ++ [.pu l]) := by
  have hone : pullRequests [BusEvent.pu l] = [l] := rfl
  rw [pullsAlternate, pullRequests_append, hone, ← List.cons_append]
  refine List.IsChain.append hlog (List.isChain_singleton l) ?_
  intro x hx y hy
  obtain rfl : l = y := by simpa using hy
  rw [List.getLast?_cons, Option.mem_some_iff] at hx
  exact hx ▸ h

/-- What the prologue logs leaves weak pull-up, and keeps the alternation (R54, R73). -/
theorem pulls_releaseEntries {log : List BusEvent} {strong : Bool} (hlevel : strong = true ↔ pullLevel log = .strong)
    (hlog : pullsAlternate log) :
    pullLevel (log ++ releaseEntries strong) = .weak ∧ pullsAlternate (log ++ releaseEntries strong) := by
  cases strong
  · have hweak : pullLevel log = .weak := by
      cases h : pullLevel log
      · rfl
      · exact absurd (hlevel.2 h) Bool.false_ne_true
    simpa [releaseEntries] using ⟨hweak, hlog⟩
  · exact ⟨pullLevel_append_pu log .weak, pullsAlternate_append_pu hlog (by simp [hlevel.1 rfl])⟩

/-! ### The ranges of the results -/

/-- A quotient that truncates toward zero stays between bounds on either side of zero (R106). -/
theorem tdiv_mem_of_mul {a b lo hi : Int} (hb : 0 < b) (hlo : lo * b ≤ a) (hhi : a ≤ hi * b) (hlo0 : lo ≤ 0)
    (hhi0 : 0 ≤ hi) : lo ≤ Int.tdiv a b ∧ Int.tdiv a b ≤ hi := by
  rcases Int.le_total 0 a with ha | ha
  · rw [Int.tdiv_eq_ediv_of_nonneg ha]
    exact ⟨hlo0.trans (Int.ediv_nonneg ha hb.le), Int.ediv_le_of_le_mul hb hhi⟩
  · have hneg : Int.tdiv a b = -(-a / b) := by
      rw [← Int.tdiv_eq_ediv_of_nonneg (Int.neg_nonneg.2 ha), Int.neg_tdiv, Int.neg_neg]
    have hle : -a / b ≤ -lo := Int.ediv_le_of_le_mul hb (by rw [Int.neg_mul]; omega)
    have hnonneg : 0 ≤ -a / b := Int.ediv_nonneg (Int.neg_nonneg.2 ha) hb.le
    omega

/-- The base count of a byte under either sign (R105, R112). -/
theorem baseCount_mem (f : ScratchpadFields) : -127500 ≤ baseCount f ∧ baseCount f ≤ 127500 := by
  have h := f.tempLsb.isLt
  unfold baseCount
  split <;> omega

/-- The correction's quotient lies between -254000 and 1000, since the divisor is at least 1 (R106, R112). -/
theorem correction_mem {f : ScratchpadFields} (h : f.countPerDegree ≠ 0) :
    -254250 ≤ correction f ∧ correction f ≤ 750 := by
  have hne : f.countPerDegree.toNat ≠ 0 := fun h0 => h (BitVec.eq_of_toNat_eq h0)
  have hpos : (0 : Int) < f.countPerDegree.toNat := by omega
  have hcr := f.countRemain.isLt
  have hquotient := tdiv_mem_of_mul (a := 1000 * ((f.countPerDegree.toNat : Int) - f.countRemain.toNat))
    (lo := -254000) (hi := 1000) hpos (by omega) (by omega) (by omega) (by omega)
  unfold correction
  omega

/-- The decoder's result in tenths of a degree (R107, R112). -/
theorem tenthsOfDegree_mem {f : ScratchpadFields} (h : f.countPerDegree ≠ 0) :
    -3817 ≤ tenthsOfDegree f ∧ tenthsOfDegree f ≤ 1282 := by
  have hbase := baseCount_mem f
  have hcorrection := correction_mem h
  have hsign : Int.sign 100 = 1 := rfl
  rw [tenthsOfDegree, millidegrees, Int.tdiv_eq_ediv, hsign]
  split <;> omega

/-- No scratchpad decodes to the sentinel: it lies outside the decoder's range (R112, R115). -/
theorem ne_tempSentinel_of_decode {b : Vector Byte 9} {t : S16} (h : decodeTemperature b = .temperature t) :
    t ≠ Config.tempSentinel := by
  unfold decodeTemperature at h
  split at h
  · cases h
  · next hcpd =>
    obtain rfl := DecodeResult.temperature.inj h
    obtain ⟨hlow, hhigh⟩ := tenthsOfDegree_mem hcpd
    have hint : (BitVec.ofInt 16 (tenthsOfDegree (fieldsOf b))).toInt = tenthsOfDegree (fieldsOf b) :=
      BitVec.toInt_ofInt_eq_self (by omega) (by omega) (by omega)
    have hsentinel : Config.tempSentinel.toInt = -32768 := by decide
    intro heq
    rw [heq, hsentinel] at hint
    omega

/-- The degrees of a sign-magnitude byte (R14, R100). -/
theorem alarmDecode_mem (b : Byte) : -127 ≤ alarmDecode b ∧ alarmDecode b ≤ 127 := by
  have hle : (b &&& 0x7F).toNat ≤ 127 := by rw [BitVec.toNat_and]; exact Nat.and_le_right
  unfold alarmDecode
  split <;> omega

/-! ### Every operation keeps the invariant -/

/-! The next five write none of the fields that `Sound` speaks of. -/

theorem sound_report {s : State} (h : Sound s) (e : ErrCode) : Sound (s.report e) := { h with }

theorem sound_withQueue {s : State} (h : Sound s) (q : List HostEvent) : Sound (s.withQueue q) := { h with }

theorem sound_answerRead {s : State} (h : Sound s) (off : WinOff) : Sound (s.answerRead off) := { h with }

theorem sound_writeOperand {s : State} (h : Sound s) (off : WinOff) (v : Byte) : Sound (s.writeOperand off v) :=
  { h with }

theorem sound_markUnwritten {s : State} (h : Sound s) (i : Instr) : Sound (s.markUnwritten i) := by
  rcases markUnwritten_cases i s with ⟨r, _, _, hmark⟩ | ⟨_, hmark⟩ <;> rw [hmark]
  · exact { h with }
  · exact h

/-- Reset leaves no pull-up request, no valid result and the sentinel (R38, R136). -/
theorem sound_platformReset (s : State) : Sound s.platformReset where
  sentinel := ⟨fun _ => rfl, fun _ => rfl⟩
  decoded := nofun
  verified := nofun
  received := nofun
  pullUp := ⟨nofun, nofun⟩
  pulls := List.isChain_singleton _
  degrees := nofun

/-- Settles O38: at reset nothing is valid, nothing is logged, and `TEMP` is the sentinel. -/
theorem resetIsSound : Obligations.ResetIsSound := { sound_platformReset State.reset with }

/-- TDECODE writes the sentinel or the decode of the verified scratchpad, which is never the sentinel (R109, R115). -/
theorem sound_tdecodeRun {s : State} (h : Sound s) : Sound (tdecodeRun s) := by
  rcases tdecodeRun_cases s with ⟨_, hrun⟩ | ⟨_, _, hrun⟩ | ⟨t, hvalid, hdecode, hrun⟩ <;> rw [hrun]
  · exact { h with sentinel := ⟨fun _ => rfl, fun _ => rfl⟩, decoded := nofun }
  · exact { h with sentinel := ⟨fun _ => rfl, fun _ => rfl⟩, decoded := nofun }
  · exact { h with
      sentinel := ⟨fun heq => absurd heq (ne_tempSentinel_of_decode hdecode), nofun⟩
      decoded := fun _ => ⟨hvalid, hdecode⟩ }

theorem sound_almencRun {s : State} (h : Sound s) (o : OperandRegs) : Sound (almencRun o s) := { h with }

theorem sound_almdecRun {s : State} (h : Sound s) (o : OperandRegs) : Sound (almdecRun o s) := by
  obtain ⟨hlow, hhigh⟩ := alarmDecode_mem o.argB
  have hint : (BitVec.ofInt 16 (alarmDecode o.argB)).toInt = alarmDecode o.argB :=
    BitVec.toInt_ofInt_eq_self (by omega) (by omega) (by omega)
  refine { h with degrees := fun _ => ?_ }
  show -127 ≤ (BitVec.ofInt 16 (alarmDecode o.argB)).toInt ∧ (BitVec.ofInt 16 (alarmDecode o.argB)).toInt ≤ 127
  rw [hint]
  exact ⟨hlow, hhigh⟩

/-- The prologue invalidates the results and asks for weak pull-up where strong was on (R54, R73). -/
theorem sound_afterSelect {s : State} (h : Sound s) (a : Addr) : Sound (afterSelect a s) := by
  obtain ⟨hweak, hpulls⟩ := pulls_releaseEntries h.pullUp h.pulls
  have hnone : pullRequests [BusEvent.sel a s.selectAnswer] = [] := rfl
  exact {
    sentinel := ⟨fun _ => rfl, fun _ => rfl⟩
    decoded := nofun
    verified := nofun
    received := nofun
    pullUp := by rw [afterSelect_busLog, pullLevel_append_of_none hnone, hweak]; exact ⟨nofun, nofun⟩
    pulls := pullsAlternate_append_of_none hnone hpulls
    degrees := h.degrees }

/-- Log entries that are no pull-up requests keep the invariant while no scratchpad is valid. -/
theorem sound_appendLog {s : State} (h : Sound s) (hvalid : s.spValid = false) {es : List BusEvent}
    (hnone : pullRequests es = []) (e : ErrCode) : Sound { s with err := e, busLog := s.busLog ++ es } :=
  { h with
    received := fun hv => absurd (hvalid.symm.trans hv) Bool.false_ne_true
    pullUp := (pullLevel_append_of_none hnone s.busLog).symm ▸ h.pullUp
    pulls := pullsAlternate_append_of_none hnone h.pulls }

/-- SPREAD makes the scratchpad valid only when its CRC verifies, and then the log ends in the selection and the bytes
received (R27, R31, R75). -/
theorem sound_spreadFound {s : State} (h : Sound s) (hvalid : s.spValid = false) (htemp : s.tempValid = false)
    {before : List BusEvent} {a : Addr} (hlog : s.busLog = before ++ [.sel a .found]) :
    Sound (spreadFound Config.params s) := by
  have hnone : pullRequests (.wr Config.params.opReadSp :: (nineAnswers s).toList.map .rd) = [] := by
    simp [pullRequests]
  have hcrc : (if crcOf Config.params (nineAnswers s) = (nineAnswers s)[8] then true else s.spValid) = true →
      crcOf Config.params (nineAnswers s) = (nineAnswers s)[8] := by
    rw [hvalid]; simp
  rw [spreadFound_eq]
  exact { h with
    decoded := fun ht => absurd (htemp.symm.trans ht) Bool.false_ne_true
    verified := fun hv => ⟨hcrc hv, hcrc hv, rfl⟩
    received := fun _ => ⟨before, a, by simp [hlog, spreadEntries]⟩
    pullUp := (pullLevel_append_of_none hnone s.busLog).symm ▸ h.pullUp
    pulls := pullsAlternate_append_of_none hnone h.pulls }

/-- SPSTORE asks for strong pull-up, which was weak since its prologue (R54, R84). -/
theorem sound_spstoreFound {s : State} (h : Sound s) (hvalid : s.spValid = false) (hweak : s.strongPuReq = false)
    (p : Params) : Sound (spstoreFound p s) := by
  have hnone : pullRequests [BusEvent.wr p.opCopySp] = [] := rfl
  have hlevel : pullLevel s.busLog ≠ .strong := fun hs => Bool.false_ne_true (hweak.symm.trans (h.pullUp.2 hs))
  rw [spstoreFound_eq, List.append_cons]
  exact { h with
    received := fun hv => absurd (hvalid.symm.trans hv) Bool.false_ne_true
    pullUp := ⟨fun _ => pullLevel_append_pu _ _, fun _ => rfl⟩
    pulls := pullsAlternate_append_pu (pullsAlternate_append_of_none hnone h.pulls)
      (by rwa [pullLevel_append_of_none hnone]) }

theorem sound_foundOf_afterSelect {s : State} (h : Sound s) (hfound : s.selectAnswer = .found) (i : Instr)
    (o : OperandRegs) : Sound (foundOf i o (afterSelect o.addr s)) := by
  have hafter : Sound (afterSelect o.addr s) := sound_afterSelect h o.addr
  cases i
  case spread => exact sound_spreadFound hafter rfl rfl (by rw [afterSelect_busLog, hfound])
  case spwrite => rw [foundOf, spwriteFound_eq]; exact sound_appendLog hafter rfl rfl .ok
  case spstore => exact sound_spstoreFound hafter rfl rfl Config.params
  case sprecall => exact sound_appendLog hafter rfl rfl .ok
  all_goals exact hafter

theorem sound_runOf {s : State} (h : Sound s) (i : Instr) (o : OperandRegs) : Sound (runOf i o s) := by
  cases hb : isBusCommand i
  · rcases runOf_local_cases hb o s with hrun | hrun | hrun | hrun <;> rw [hrun]
    · exact h
    · exact sound_tdecodeRun h
    · exact sound_almencRun h o
    · exact sound_almdecRun h o
  · rcases runOf_bus_split hb o s with ⟨_, hrun⟩ | ⟨hfound, hrun⟩ <;> rw [hrun]
    · exact sound_report (sound_afterSelect h o.addr) .deviceNotFound
    · exact sound_foundOf_afterSelect h hfound i o

theorem sound_serve {e : HostEvent} {s t : State} (h : Sound s) (hserve : serve e s = .next t) : Sound t := by
  rcases serve_cases hserve with ⟨off, _, rfl⟩ | ⟨off, v, _, _, rfl⟩ | ⟨_, _, i, _, _, _, hexec⟩ | ⟨_, _, _, _, _, _, rfl⟩ |
    ⟨_, rfl⟩
  · exact sound_answerRead h off
  · exact sound_writeOperand h off v
  · exact eq_runOf_of_exec hexec ▸ sound_runOf (sound_markUnwritten h i) i s.operandValues
  · exact sound_report h .illegalCommand
  · exact sound_platformReset s

/-- Settles O39: a step waits or serves one event, and every operation an event can start keeps the invariant. -/
theorem stepKeepsSound : Obligations.StepKeepsSound := by
  intro s t h hstep
  rcases step_cases hstep with ⟨_, rfl⟩ | ⟨e, q, _, hserve⟩
  · exact h
  · exact sound_serve (sound_withQueue h q) hserve

end Sys2Proof.Proofs

/-! PROOFS. What the spec leaves unspecified is never observed (spec 10_state.md R37 to R39, 20_memory.md R41). A step
of a state and a step of the same state with its unspecified bytes hidden agree, so every step factors through
`hideUnspecified`. -/

namespace Sys2Proof.Proofs

open Sys2Proof.Machine Sys2Proof.Safety

/-! ### Filling the unwritten bytes -/

/-- Filling twice is filling once with the later values: the bytes the first filling gave are replaced again. -/
theorem fillBytes_fillBytes {n : Nat} (f : Vector Bool n) (g g' : Nat → Byte) (v : BitVec (8 * n)) :
    fillBytes f g' (fillBytes f g v) = fillBytes f g' v := by
  apply eq_of_byteOf_eq
  intro k hk
  have h : ∀ (g : Nat → Byte) (u : BitVec (8 * n)),
      byteOf (fillBytes f g u) k = bif f[k] then byteOf u k else g k :=
    fun g u => byteOf_fillBytes f g u ⟨k, hk⟩ (Nat.le_refl _)
  rw [h, h, h]
  cases f[k] <;> rfl

theorem fill_fill (o : OperandRegs) (g g' : OperandReg → Nat → Byte) : (o.fill g).fill g' = o.fill g' := by
  have haddr := fillBytes_fillBytes (n := 8) o.written.addr (g .addr) (g' .addr) o.addr
  have hargD := fillBytes_fillBytes (n := 2) o.written.argD (g .argD) (g' .argD) o.argD
  simp only [OperandRegs.fill]
  rw [haddr, hargD]
  cases o.written.argHi <;> cases o.written.argLo <;> cases o.written.argB <;> rfl

/-! ### What a read sees of the hidden state -/

theorem specified_hideUnspecified (s : State) (l : WinLoc) : (hideUnspecified s).specified l = s.specified l := by
  cases l <;> rfl

/-- Hiding keeps every byte to which the spec gives a value (R37, R39, R41). -/
theorem heldByte_hideUnspecified {s : State} {l : WinLoc} (h : s.specified l = true) :
    (hideUnspecified s).heldByte l = s.heldByte l := by
  cases l
  case argD k =>
    have hfill := byteOf_fillBytes (n := 2) s.operands.written.argD (fun _ => 0) s.operands.argD k (Nat.le_refl _)
    exact hfill.trans (congrArg (cond · _ _) h)
  case addr k =>
    have hfill := byteOf_fillBytes (n := 8) s.operands.written.addr (fun _ => 0) s.operands.addr k (Nat.le_refl _)
    exact hfill.trans (congrArg (cond · _ _) h)
  case sp i => exact congrArg (fun v : Vector Byte 9 => v[i]) (congrArg (cond · s.sp (Vector.replicate 9 0)) h)
  case resDeg k => exact congrArg (byteOf · k) (congrArg (cond · s.resDeg 0) h)
  case cmd | status | temp | reserved => rfl
  all_goals exact congrArg (cond · _ _) h

theorem memRead_hideUnspecified (s : State) (off : WinOff) : (hideUnspecified s).memRead off = s.memRead off := by
  cases h : s.specified (locate off)
  · rw [memRead_of_unspecified h, memRead_of_unspecified ((specified_hideUnspecified s _).trans h)]; rfl
  · rw [memRead_of_specified h, memRead_of_specified ((specified_hideUnspecified s _).trans h),
      heldByte_hideUnspecified h]

/-! ### What a command sees of the hidden state -/

theorem operandValues_hideUnspecified (s : State) : (hideUnspecified s).operandValues = s.operandValues :=
  fill_fill s.operands (fun _ _ => 0) (Config.freeOperand s.fresh)

theorem hideUnspecified_markUnwritten (i : Instr) (s : State) :
    hideUnspecified (s.markUnwritten i) = (hideUnspecified s).markUnwritten i := by
  have hfirst : (hideUnspecified s).firstUnwritten i = s.firstUnwritten i := rfl
  simp only [State.markUnwritten, hfirst]
  cases s.firstUnwritten i <;> rfl

theorem hideUnspecified_tdecodeRun (s : State) : hideUnspecified (tdecodeRun s) = tdecodeRun (hideUnspecified s) := by
  have hvalid : (hideUnspecified s).spValid = s.spValid := rfl
  cases hv : s.spValid
  · rw [tdecodeRun_of_not_spValid hv, tdecodeRun_of_not_spValid (hvalid.trans hv)]; rfl
  · have hsp : (hideUnspecified s).sp = s.sp := by simp [hideUnspecified, hv]
    cases hd : decodeTemperature s.sp <;> simp only [tdecodeRun, hvalid, hsp, hv, hd] <;> rfl

/-- A local command commutes with hiding: of the hidden bytes it reads none (R110). -/
theorem hideUnspecified_runOf_local {i : Instr} (hb : isBusCommand i = false) (o : OperandRegs) (s : State) :
    hideUnspecified (runOf i o s) = runOf i o (hideUnspecified s) := by
  cases i
  case tdecode => exact hideUnspecified_tdecodeRun s
  case nop | almenc | almdec => rfl
  all_goals cases hb

/-! ### Operations on states that agree where the spec gives values -/

section
variable {s t : State} (hst : hideUnspecified s = hideUnspecified t)
include hst

/-- Where hiding the result of `f` is a function of the hidden state, `f` keeps agreement. -/
theorem agree_of_factor {f : State → State} (g : State → State)
    (h : ∀ s, hideUnspecified (f s) = g (hideUnspecified s)) : hideUnspecified (f s) = hideUnspecified (f t) := by
  rw [h, h, hst]

/-- The prologue hides the scratchpad, whatever stood there (R73). -/
theorem agree_afterSelect (a : Addr) : hideUnspecified (afterSelect a s) = hideUnspecified (afterSelect a t) :=
  agree_of_factor hst (fun u => { afterSelect a u with sp := Vector.replicate 9 0 }) fun _ => rfl

/-- SPREAD writes every byte of `SP` before anything reads one (R75, R78). -/
theorem agree_spreadFound (p : Params) : hideUnspecified (spreadFound p s) = hideUnspecified (spreadFound p t) :=
  agree_of_factor hst
    (fun u => { spreadFound p u with
      sp := bif (spreadFound p u).spValid then nineAnswers u else Vector.replicate 9 0 })
    fun _ => by rw [spreadFound_eq, spreadFound_eq]; rfl

theorem agree_foundOf (i : Instr) (o : OperandRegs) :
    hideUnspecified (foundOf i o s) = hideUnspecified (foundOf i o t) := by
  cases i
  case spread => exact agree_spreadFound hst Config.params
  case spwrite => exact agree_of_factor hst (spwriteFound Config.params o.argHi o.argLo) fun _ => rfl
  case spstore => exact agree_of_factor hst (spstoreFound Config.params) fun _ => rfl
  case sprecall => exact agree_of_factor hst (sprecallFound Config.params) fun _ => rfl
  all_goals exact hst

theorem agree_runOf (i : Instr) (o : OperandRegs) : hideUnspecified (runOf i o s) = hideUnspecified (runOf i o t) := by
  cases hb : isBusCommand i
  · exact agree_of_factor hst (runOf i o) (hideUnspecified_runOf_local hb o)
  · have hsel : t.selectAnswer = s.selectAnswer :=
      selectAnswer_congr (congrArg State.driver hst).symm (congrArg State.fresh hst).symm
    rcases runOf_bus_split hb o s with ⟨hs, hrun⟩ | ⟨hs, hrun⟩ <;> rw [hrun]
    · rw [runOf_bus_notFound hb o (hsel.trans hs)]
      exact congrArg (State.report .deviceNotFound) (agree_afterSelect hst o.addr)
    · rw [runOf_bus_found hb o (hsel.trans hs)]
      exact agree_foundOf (agree_afterSelect hst o.addr) i o

theorem agree_exec (i : Instr) : OutcomesAgree (exec i s) (exec i t) := by
  have hvalues : s.operandValues = t.operandValues := by
    rw [← operandValues_hideUnspecified s, hst, operandValues_hideUnspecified]
  rw [exec_eq, exec_eq, hvalues]
  exact agree_runOf (agree_of_factor hst _ (hideUnspecified_markUnwritten i)) i t.operandValues

theorem agree_writeCmd (c : Byte) : OutcomesAgree (writeCmd c s) (writeCmd c t) := by
  unfold writeCmd
  cases decode c
  · exact congrArg (State.report .illegalCommand) hst
  · exact agree_exec hst _

theorem agree_answerRead (off : WinOff) : hideUnspecified (s.answerRead off) = hideUnspecified (t.answerRead off) :=
  agree_of_factor hst (State.answerRead off) fun u => by
    simp only [State.answerRead, memRead_hideUnspecified]; rfl

theorem agree_writeOperand (off : WinOff) (v : Byte) :
    hideUnspecified (s.writeOperand off v) = hideUnspecified (t.writeOperand off v) :=
  agree_of_factor hst (State.writeOperand off v) fun u => by
    simp only [hideUnspecified, State.writeOperand, hideUnwritten_putAt]

theorem agree_serve (e : HostEvent) : OutcomesAgree (serve e s) (serve e t) := by
  cases e with
  | read off => exact agree_answerRead hst off
  | write off v =>
    by_cases hcmd : locate off = .cmd
    · simp only [serve, hcmd, if_true]
      exact agree_writeCmd hst v
    · simp only [serve, hcmd, if_false]
      exact agree_writeOperand hst off v
  | wide off n => rfl
  | overlapping off => rfl
  | reset => exact agree_of_factor hst (fun u => hideUnspecified u.platformReset) fun _ => rfl

end

/-- Settles O40: both states serve the same event, and each operation's result, hidden, is a function of the state,
hidden. -/
theorem unspecifiedResultsAreNeverObserved : Obligations.UnspecifiedResultsAreNeverObserved := by
  intro s t hst
  have hhost : s.host = t.host := (congrArg State.host hst :)
  unfold step advance
  rw [← hhost]
  cases s.host.queue with
  | nil => exact hst
  | cons e q => exact agree_serve (agree_of_factor hst (State.withQueue q) fun _ => rfl) e

end Sys2Proof.Proofs

/-! PROOFS. What commands and steps leave unchanged: operand registers, the bus, the fault record (spec 10_state.md R18,
R29, R33, R37, R40, R54; 60_exceptions.md R118, R128). -/

namespace Sys2Proof.Proofs

open Sys2Proof.Machine Sys2Proof.Safety

/-! ### Commands and the bus -/

/-- Settles O24: no command writes an operand register, and marking a fault does not either. -/
theorem commandsNeverWriteOperandRegisters : Obligations.CommandsNeverWriteOperandRegisters := by
  intro i s t hexec
  rw [eq_runOf_of_exec hexec, runOf_operands, markUnwritten_operands]

@[simp] theorem markUnwritten_selectAnswer (i : Instr) (s : State) :
    (s.markUnwritten i).selectAnswer = s.selectAnswer :=
  selectAnswer_congr (markUnwritten_driver i s) (markUnwritten_fresh i s)

/-- Settles O17: the state after a failed selection, field by field. -/
theorem deviceNotFoundEndsEveryBusCommand : Obligations.DeviceNotFoundEndsEveryBusCommand := by
  intro i s hb hnot
  refine ⟨_, s.operandValues.addr, exec_eq i s, fun hw => fill_addr _ hw, ?_⟩
  rw [runOf_bus_notFound hb _ ((markUnwritten_selectAnswer i s).trans hnot)]
  simp [hnot]

/-- Settles O25: the frame of the local commands, and the log of the bus commands. -/
theorem onlyBusCommandsUseTheBus : Obligations.OnlyBusCommandsUseTheBus := by
  intro i s t hexec
  rw [eq_runOf_of_exec hexec]
  constructor
  · intro hb
    simpa using runOf_local_bus hb s.operandValues (s.markUnwritten i)
  · intro hb
    obtain ⟨es, hlog, hsel, hweak⟩ := runOf_bus_busLog hb s.operandValues (s.markUnwritten i)
    exact ⟨s.operandValues.addr, es, by simpa using hlog, fun hw => fill_addr _ hw, hsel, hweak⟩

/-- Settles O26: of all events only a reset and a bus command touch the pull-up request or the log. -/
theorem pullUpLastsUntilTheNextBusCommand : Obligations.PullUpLastsUntilTheNextBusCommand := by
  intro s t e q hq hstep hreset hlocal
  rw [step_of_event hq] at hstep
  rcases serve_cases hstep with ⟨off, _, rfl⟩ | ⟨off, v, _, _, rfl⟩ | ⟨off, c, i, he, hcmd, hdecode, hexec⟩ |
    ⟨_, _, _, _, _, _, rfl⟩ | ⟨he, _⟩
  case inr.inr.inl =>
    have hb : isBusCommand i = false := hlocal c i (by rw [he, (locate_eq_cmd_iff off).1 hcmd]) hdecode
    obtain ⟨hlog, _, _, hpull, _⟩ := runOf_local_bus hb (s.withQueue q).operandValues ((s.withQueue q).markUnwritten i)
    rw [eq_runOf_of_exec hexec, hpull, hlog]
    simp
  case inr.inr.inr.inr => exact absurd he hreset
  all_goals exact ⟨rfl, rfl⟩

/-! ### Written flags -/

/-- Settles O34: host writes only set written flags, and commands leave them alone. -/
theorem operandsStayWrittenUntilReset : Obligations.OperandsStayWrittenUntilReset := by
  intro s t r q e hq hreset hstep hw
  rw [step_of_event hq] at hstep
  rcases serve_cases hstep with ⟨off, _, rfl⟩ | ⟨off, v, _, _, rfl⟩ | ⟨_, _, i, _, _, _, hexec⟩ |
    ⟨_, _, _, _, _, _, rfl⟩ | ⟨he, _⟩
  · exact hw
  · exact isWritten_putAt v (locate off) hw
  · rw [commandsNeverWriteOperandRegisters i _ t hexec]
    exact hw
  · exact hw
  · exact absurd he hreset

/-! ### The fault record -/

/-- A command leaves the fault record that reading its operands made (R40, R128). -/
theorem faultRec_of_exec {i : Instr} {s t : State} (hexec : exec i s = .next t) :
    t.faultRec = (s.markUnwritten i).faultRec := by
  rw [eq_runOf_of_exec hexec, runOf_faultRec]

/-- Settles O46: the record is the one made by reading the operands. -/
theorem faultRecordNamesAnUnwrittenOperand : Obligations.FaultRecordNamesAnUnwrittenOperand := by
  intro i s t hexec
  rw [faultRec_of_exec hexec]
  rcases markUnwritten_cases i s with ⟨r, hr, hw, hmark⟩ | ⟨hready, hmark⟩ <;> rw [hmark]
  · refine ⟨fun hready => ?_, fun _ hnone => ⟨r, hr, hw, by simp [hnone]⟩⟩
    exact absurd (hw.symm.trans (hready r hr)) Bool.false_ne_true
  · exact ⟨fun _ => rfl, fun hnot => absurd hready hnot⟩

/-- Settles O47: the record is kept by waiting, by every event and by every command. -/
theorem faultRecordIsSticky : Obligations.FaultRecordIsSticky := by
  intro s t f hstep hf
  rcases step_cases hstep with ⟨_, rfl⟩ | ⟨e, q, _, hserve⟩
  · exact hf
  · rcases serve_cases hserve with ⟨off, _, rfl⟩ | ⟨off, v, _, _, rfl⟩ | ⟨_, _, i, _, _, _, hexec⟩ |
      ⟨_, _, _, _, _, _, rfl⟩ | ⟨_, rfl⟩
    · exact hf
    · exact hf
    · rw [faultRec_of_exec hexec]
      exact markUnwritten_faultRec_of_some i hf
    · exact hf
    · exact hf

/-! ### The decoded command and the strict reading -/

/-- Settles O3: the write of offset 0x00 decodes its byte and runs the command. -/
theorem stepRunsTheDecodedCommand : Obligations.StepRunsTheDecodedCommand := by
  have hstep : ∀ (s : State) (c : Byte) (i : Instr) (q : List HostEvent),
      s.host.queue = .write 0x00#6 c :: q → decode c = .ok i → step s = exec i (s.withQueue q) := by
    intro s c i q hq hdecode
    rw [step_of_event hq, serve_write_cmd, writeCmd_ok hdecode]
  exact ⟨hstep, fun s w i hdecode => hstep (s.withFetchWord 8 w) _ i s.host.queue rfl hdecode⟩

/-- Settles O7: the first unwritten operand is recorded, and a recorded fault admits nothing. -/
theorem unwrittenOperandIsRecordedAndStopsTheRun : Obligations.UnwrittenOperandIsRecordedAndStopsTheRun := by
  intro i s r hnone hr hw
  cases hfirst : s.firstUnwritten i with
  | none => exact absurd (hw.symm.trans ((firstUnwritten_eq_none i s).1 hfirst r hr)) Bool.false_ne_true
  | some r' =>
    obtain ⟨hr', hw'⟩ := firstUnwritten_eq_some hfirst
    refine ⟨r', hr', hw', ?_, fun q => strictStep_of_fault rfl⟩
    simp [strictExec, hfirst, State.recordFault, hnone]

/-- The machine runs the command that the host's next event starts. -/
theorem step_of_nextCommand {s : State} {i : Instr} (h : s.nextCommand = some i) :
    step s = exec i (s.withQueue s.host.queue.tail) := by
  unfold State.nextCommand at h
  split at h
  · next off c q hq =>
    split at h
    · next hcmd =>
      obtain rfl := (locate_eq_cmd_iff off).1 hcmd
      cases hdecode : decode c with
      | ok j =>
        rw [hdecode] at h
        obtain rfl : j = i := Option.some.inj h
        rw [stepRunsTheDecodedCommand.1 s c j q hq hdecode, hq, List.tail_cons]
      | error r => rw [hdecode] at h; cases h
    · cases h
  · cases h

/-- On an unwritten operand both readings record a fault, and on written operands they are one (R128). -/
theorem strictExec_eq_next_iff {i : Instr} {s t : State} (hs : s.faultRec = none) (ht : t.faultRec = none) :
    strictExec i s = .next t ↔ exec i s = .next t := by
  by_cases hready : OperandsReady i s
  · rw [strictExec_of_ready hready]
  · have hunwritten : ∃ r ∈ operandsOf i, s.operands.isWritten r = false := by simpa [OperandsReady] using hready
    obtain ⟨r, hr, hw⟩ := hunwritten
    obtain ⟨r', _, _, hstrict, _⟩ := unwrittenOperandIsRecordedAndStopsTheRun i s r hs hr hw
    constructor
    · intro hnext
      obtain rfl := Host.Outcome.next.inj (hstrict.symm.trans hnext)
      cases ht
    · intro hexec
      obtain ⟨r, _, _, hrec⟩ := (faultRecordNamesAnUnwrittenOperand i s t hexec).2 hready hs
      cases ht.symm.trans hrec

/-- Settles O48: with no fault recorded a strict step is a step, unless it is a command on an unwritten operand, and that
records a fault in both readings. -/
theorem strictStepsAreTheMachinesSteps : Obligations.StrictStepsAreTheMachinesSteps := by
  intro s t ht
  cases hs : s.faultRec with
  | some f => simp [strictStep_of_fault hs]
  | none =>
    simp only [strictStep, hs, true_and]
    cases hnext : s.nextCommand with
    | none => exact Option.some_inj
    | some i =>
      rw [step_of_nextCommand hnext]
      exact Option.some_inj.trans (strictExec_eq_next_iff hs ht)

/-! ### Commands on operands that were never written -/

/-- Every byte counts as written. -/
def allWritten : WrittenFlags where
  argHi := true
  argLo := true
  argD := Vector.replicate 2 true
  argB := true
  addr := Vector.replicate 8 true

/-- Operand registers in which the host has written what a command would read from `s`. -/
def asIfWritten (s : State) : OperandRegs := { s.operandValues with written := allWritten }

theorem isWritten_asIfWritten (s : State) (r : OperandReg) : (asIfWritten s).isWritten r = true := by
  cases r <;> rfl

theorem markUnwritten_eq_update (i : Instr) (s : State) :
    s.markUnwritten i = { s with faultRec := (s.markUnwritten i).faultRec } := by
  unfold State.markUnwritten
  split <;> rfl

/-- A command on the values it read runs as on registers in which the host has written them (R128). -/
theorem exec_eq_asIfWritten (i : Instr) (s : State) :
    exec i s = .next { runOf i (asIfWritten s) { s with operands := asIfWritten s } with
      operands := s.operands, faultRec := (s.markUnwritten i).faultRec } := by
  have hvalues : runOf i s.operandValues (s.markUnwritten i) = runOf i (asIfWritten s) (s.markUnwritten i) :=
    runOf_congr _ fun r _ => by cases r <;> rfl
  have hmarked : runOf i (asIfWritten s) { s with faultRec := (s.markUnwritten i).faultRec } =
      withSurroundings s.operands (s.markUnwritten i).faultRec s.host (runOf i (asIfWritten s) s) :=
    runOf_withSurroundings i (asIfWritten s) s.operands (s.markUnwritten i).faultRec s.host s
  have hwritten : runOf i (asIfWritten s) { s with operands := asIfWritten s } =
      withSurroundings (asIfWritten s) s.faultRec s.host (runOf i (asIfWritten s) s) :=
    runOf_withSurroundings i (asIfWritten s) (asIfWritten s) s.faultRec s.host s
  rw [exec_eq, hvalues, markUnwritten_eq_update, hmarked, hwritten]
  rfl

/-- Settles O45: the registers of `asIfWritten` hold every written byte, and the free value of every other. -/
theorem commandsRunOnUnwrittenOperands : Obligations.CommandsRunOnUnwrittenOperands := by
  intro i s
  have hargD := fun k => byteOf_fillBytes (n := 2) s.operands.written.argD (Config.freeOperand s.fresh .argD)
    s.operands.argD k (Nat.le_refl _)
  have haddr := fun k => byteOf_fillBytes (n := 8) s.operands.written.addr (Config.freeOperand s.fresh .addr)
    s.operands.addr k (Nat.le_refl _)
  exact ⟨asIfWritten s, _, exec_of_ready fun r _ => isWritten_asIfWritten s r, exec_eq_asIfWritten i s,
    isWritten_asIfWritten s, fun hw => fill_argHi _ hw, fun hw => fill_argLo _ hw, fun hw => fill_argB _ hw,
    fun k hw => (hargD k).trans (congrArg (cond · _ _) hw), fun k hw => (haddr k).trans (congrArg (cond · _ _) hw)⟩

end Sys2Proof.Proofs

/-! PROOFS. The register window: the layout of `STATUS`, what reads return, and what writes and commands leave alone (spec
10_state.md R25 to R39, 20_memory.md R41 to R48). -/

namespace Sys2Proof.Proofs

open Sys2Proof.Machine Sys2Proof.Safety

/-! ### STATUS -/

theorem memRead_status (s : State) : s.memRead 0x01#6 = s.status := memRead_of_specified rfl

theorem code_le_five (e : ErrCode) : e.code.toNat ≤ 5 := by cases e <;> decide

/-- The fields of `STATUS`, from bit 0 up (R25). -/
theorem status_fields (s : State) :
    s.status.extractLsb' 0 3 = s.err.code ∧ s.status.getLsbD 3 = s.spValid ∧ s.status.getLsbD 4 = s.tempValid ∧
    s.status.getLsbD 5 = s.strongPuReq ∧ s.status.getLsbD 6 = false ∧ s.status.getLsbD 7 = false := by
  refine ⟨?_, ?_⟩
  · exact BitVec.extractLsb'_append_eq_right
  · simp only [State.status, BitVec.getLsbD_append]
    simp

/-- Settles O28: the codes by definition, the fields bit by bit, and a write that leads to no operand byte. -/
theorem statusRegisterLayout : Obligations.StatusRegisterLayout := by
  refine ⟨⟨rfl, rfl, rfl, rfl, rfl, rfl⟩, fun s => ?_, fun s v => rfl, rfl⟩
  obtain ⟨herr, hfields⟩ := status_fields s
  simpa only [memRead_status] using ⟨⟨herr, code_le_five s.err⟩, hfields⟩

/-! ### Reads -/

theorem locate_reserved {off : WinOff} (h : (0x0D ≤ off.toNat ∧ off.toNat ≤ 0x0F) ∨ 0x21 ≤ off.toNat) :
    locate off = .reserved := by
  revert off; decide

theorem locate_sp (i : Fin 9) : locate (BitVec.ofNat 6 (0x18 + i.val)) = .sp i := by
  revert i; decide

theorem locate_argD (k : Fin 2) : locate (BitVec.ofNat 6 (0x04 + k.val)) = .argD k := by
  revert k; decide

theorem locate_addr (k : Fin 8) : locate (BitVec.ofNat 6 (0x10 + k.val)) = .addr k := by
  revert k; decide

/-- A byte to which the spec gives a value reads as what is held at its place (R41). -/
theorem memRead_at {s : State} {off : WinOff} {l : WinLoc} (hl : locate off = l) (h : s.specified l = true) :
    s.memRead off = s.heldByte l :=
  hl ▸ memRead_of_specified (hl.symm ▸ h)

/-- High byte and low byte make a 16-bit register (R44). -/
theorem byteOf_append_byteOf (v : S16) : byteOf v 1 ++ byteOf v 0 = v := by
  apply BitVec.eq_of_getLsbD_eq
  intro i hi
  rw [BitVec.getLsbD_append, getLsbD_byteOf, getLsbD_byteOf]
  by_cases h : i < 8
  · simp [h]
  · simp [h, show i - 8 < 8 by omega, show 8 + (i - 8) = i by omega]

/-- Settles O29: each offset leads to its register's byte, and both bytes of a 16-bit register make it. -/
theorem windowReadsReturnTheRegisters : Obligations.WindowReadsReturnTheRegisters := by
  intro s
  refine ⟨rfl, fun off h => memRead_at (locate_reserved h) rfl, byteOf_append_byteOf s.temp,
    fun h i => memRead_at (locate_sp i) h, fun h => memRead_at locate_crcCalc h, fun h => memRead_at locate_resByte h,
    fun h => ?_, fun h => memRead_at locate_argHi h, fun h => memRead_at locate_argLo h,
    fun h => memRead_at locate_argB h, fun k h => memRead_at (locate_argD k) h, fun k h => memRead_at (locate_addr k) h⟩
  have hhigh : s.memRead 0x09#6 = byteOf s.resDeg 1 := memRead_at (l := .resDeg 1) (by decide) h
  have hlow : s.memRead 0x08#6 = byteOf s.resDeg 0 := memRead_at (l := .resDeg 0) (by decide) h
  rw [hhigh, hlow, byteOf_append_byteOf]

/-! ### Writes of operand bytes -/

/-- The places of the operand registers, which alone a host write changes (R18, R47). -/
def isOperandPlace : WinLoc → Bool
  | .argHi | .argLo | .argD _ | .argB | .addr _ => true
  | .cmd | .status | .resByte | .resDeg _ | .temp _ | .crcCalc | .sp _ | .reserved => false

theorem isOperandPlace_locate {off : WinOff}
    (h : (0x02 ≤ off.toNat ∧ off.toNat ≤ 0x06) ∨ (0x10 ≤ off.toNat ∧ off.toNat ≤ 0x17)) :
    isOperandPlace (locate off) = true := by
  revert off; decide

/-- The byte written stands at its place and counts as written (R37, R46). -/
theorem putAt_same (s : State) {l : WinLoc} (v : Byte) (h : isOperandPlace l = true) :
    { s with operands := s.operands.putAt v l }.specified l = true ∧
    { s with operands := s.operands.putAt v l }.heldByte l = v := by
  cases l
  case argHi | argLo | argB => exact ⟨rfl, rfl⟩
  case argD k => exact ⟨Vector.getElem_set_self .., byteOf_putByte_same _ _ _ (by omega)⟩
  case addr k => exact ⟨Vector.getElem_set_self .., byteOf_putByte_same _ _ _ (by omega)⟩
  all_goals cases h

/-- Every other place holds what it held (R46). -/
theorem putAt_other (s : State) {l m : WinLoc} (v : Byte) (h : m ≠ l) :
    { s with operands := s.operands.putAt v l }.specified m = s.specified m ∧
    { s with operands := s.operands.putAt v l }.heldByte m = s.heldByte m := by
  cases l
  case argD k =>
    cases m
    case argD j =>
      have hne : j.val ≠ k.val := fun he => h (congrArg WinLoc.argD (Fin.ext he))
      exact ⟨Vector.getElem_set_ne k.isLt j.isLt hne.symm, byteOf_putByte_other _ _ _ _ hne (by omega)⟩
    all_goals exact ⟨rfl, rfl⟩
  case addr k =>
    cases m
    case addr j =>
      have hne : j.val ≠ k.val := fun he => h (congrArg WinLoc.addr (Fin.ext he))
      exact ⟨Vector.getElem_set_ne k.isLt j.isLt hne.symm, byteOf_putByte_other _ _ _ _ hne (by omega)⟩
    all_goals exact ⟨rfl, rfl⟩
  case argHi =>
    cases m
    case argHi => exact absurd rfl h
    all_goals exact ⟨rfl, rfl⟩
  case argLo =>
    cases m
    case argLo => exact absurd rfl h
    all_goals exact ⟨rfl, rfl⟩
  case argB =>
    cases m
    case argB => exact absurd rfl h
    all_goals exact ⟨rfl, rfl⟩
  all_goals exact ⟨rfl, rfl⟩

/-- Settles O32: the byte's place changes and no other. -/
theorem operandByteWriteThenRead : Obligations.OperandByteWriteThenRead := by
  intro s off v q hq hoff
  have hplace := isOperandPlace_locate hoff
  have hcmd : locate off ≠ .cmd := fun h => by rw [h] at hplace; cases hplace
  refine ⟨s.operands.putAt v (locate off), ?_, ?_, fun off' hne => ?_⟩
  · rw [step_of_event hq, serve, if_neg hcmd]; rfl
  · obtain ⟨hspecified, hheld⟩ := putAt_same s v hplace
    rw [memRead_of_specified hspecified, hheld]
  · have hother : locate off' ≠ locate off := fun h =>
      hne (locate_injective h.symm (fun hr => by rw [hr] at hplace; cases hplace)).symm
    obtain ⟨hspecified, hheld⟩ := putAt_other s v hother
    exact memRead_congr hheld hspecified rfl

/-! ### The window frame of the commands -/

/-- May the command change the byte held at a place (R30 to R35, R73, R98, R100, R109)? -/
def mayWrite (i : Instr) : WinLoc → Bool
  | .status => decide (i ≠ .nop)
  | .resByte => decide (i = .almenc)
  | .resDeg _ => decide (i = .almdec)
  | .temp _ => isBusCommand i || decide (i = .tdecode)
  | .crcCalc => decide (i = .spread)
  | .sp _ => isBusCommand i
  | .cmd | .argHi | .argLo | .argD _ | .argB | .addr _ | .reserved => false

/-- The offsets of `mayChange` are those of these places (R41). -/
theorem mayWrite_locate {i : Instr} {off : WinOff} (h : off ∉ mayChange i) : mayWrite i (locate off) = false := by
  cases i <;> revert off <;> decide

/-- At every other place a command leaves the byte held, and whether the spec gives it a value. -/
theorem runOf_place {i : Instr} {l : WinLoc} (h : mayWrite i l = false) (o : OperandRegs) (s : State) :
    (runOf i o s).specified l = s.specified l ∧ (runOf i o s).heldByte l = s.heldByte l := by
  cases l
  case cmd | reserved => exact ⟨rfl, rfl⟩
  case argHi | argLo | argD | argB | addr => simp [State.specified, State.heldByte]
  case status =>
    obtain rfl : i = .nop := by simpa [mayWrite] using h
    exact ⟨rfl, rfl⟩
  case resByte =>
    obtain ⟨hbyte, hset⟩ := runOf_resByte (of_decide_eq_false h) o s
    exact ⟨hset, hbyte⟩
  case resDeg k =>
    obtain ⟨hdeg, hset⟩ := runOf_resDeg (of_decide_eq_false h) o s
    exact ⟨hset, congrArg (byteOf · k.val) hdeg⟩
  case temp k =>
    obtain ⟨hb, hi⟩ := Bool.or_eq_false_iff.1 h
    obtain ⟨htemp, _⟩ := runOf_temp hb (of_decide_eq_false hi) o s
    exact ⟨rfl, congrArg (byteOf · k.val) htemp⟩
  case crcCalc =>
    obtain ⟨hcrc, hset⟩ := runOf_crcCalc (of_decide_eq_false h) o s
    exact ⟨hset, hcrc⟩
  case sp j =>
    obtain ⟨_, _, _, _, hsp, hvalid⟩ := runOf_local_bus h o s
    exact ⟨hvalid, congrArg (fun v : Vector Byte 9 => v[j]) hsp⟩

/-- Marking a fault changes nothing the host can read (R40). -/
theorem markUnwritten_place (i : Instr) (s : State) (l : WinLoc) :
    (s.markUnwritten i).specified l = s.specified l ∧ (s.markUnwritten i).heldByte l = s.heldByte l := by
  rw [markUnwritten_eq_update]
  cases l <;> exact ⟨rfl, rfl⟩

/-- Settles O27: a byte outside `mayChange` stands at a place the command does not write. -/
theorem commandsLeaveOtherWindowBytesAlone : Obligations.CommandsLeaveOtherWindowBytesAlone := by
  intro i s t off hexec hoff hspecified
  obtain ⟨hspec, hheld⟩ := runOf_place (mayWrite_locate hoff) s.operandValues (s.markUnwritten i)
  obtain ⟨hspecMark, hheldMark⟩ := markUnwritten_place i s (locate off)
  have hs := hspec.trans hspecMark
  rw [eq_runOf_of_exec hexec]
  exact ⟨hs.trans hspecified, memRead_congr (hheld.trans hheldMark) hs (by simp)⟩

end Sys2Proof.Proofs

/-! PROOFS. Window accesses: the platform's addresses, refused accesses, reads, writes that are ignored, and operands
put together from their bytes (spec 20_memory.md R41 to R47, 30_encoding.md R62, R63). -/

namespace Sys2Proof.Proofs

open Sys2Proof.Machine Sys2Proof.Safety

/-! ### Accesses that reach the block, and those with no step -/

/-- Settles O35: inside the 64 bytes the offset is the distance, outside the test fails. -/
theorem windowIsSixtyFourBytesAtItsBase : Obligations.WindowIsSixtyFourBytesAtItsBase := by
  refine ⟨fun n hn => ?_, fun a ha => ?_⟩
  · rw [windowOffset, if_pos (by omega), Nat.add_sub_cancel_left]
  · rw [windowOffset, if_neg (by omega)]

/-- Settles O6: the step serves the event, and serving either refuses it. -/
theorem protocolViolationsHaveNoStep : Obligations.ProtocolViolationsHaveNoStep :=
  fun _ _ _ _ => ⟨fun hq => step_of_event hq, fun hq => step_of_event hq⟩

/-! ### Reads -/

/-- Taking an event from the queue changes no read (R46). -/
@[simp] theorem memRead_withQueue (q : List HostEvent) (s : State) (off : WinOff) :
    (s.withQueue q).memRead off = s.memRead off :=
  memRead_congr rfl rfl rfl

/-- Settles O30: the step answers the read, and the byte answered is the one read before the event was taken. -/
theorem hostReadsChangeNoBlockState : Obligations.HostReadsChangeNoBlockState := by
  intro s off q hq
  rw [step_of_event hq, serve, State.answerRead, memRead_withQueue]
  rfl

/-! ### Ignored writes -/

/-- A write to any place but `CMD` runs no command (R46, R47). -/
theorem serve_write {off : WinOff} (h : locate off ≠ .cmd) (v : Byte) (s : State) :
    serve (.write off v) s = .next (s.writeOperand off v) :=
  if_neg h

/-- A write to a place that is no operand byte puts nothing (R47). -/
theorem putAt_of_not_operandPlace {l : WinLoc} (h : isOperandPlace l = false) (o : OperandRegs) (v : Byte) :
    o.putAt v l = o := by
  cases l
  case argHi | argLo | argD | argB | addr => cases h
  all_goals rfl

/-- The offsets of `STATUS`, of the result registers, of `SP` and the reserved ones hold neither `CMD` nor an operand
byte (R41). -/
theorem locate_readOnly {off : WinOff}
    (h : off = 0x01#6 ∨ (0x07 ≤ off.toNat ∧ off.toNat ≤ 0x0F) ∨ 0x18 ≤ off.toNat) :
    locate off ≠ .cmd ∧ isOperandPlace (locate off) = false := by
  revert off; decide

/-- Settles O31: the write leads to no operand byte, and a reserved offset holds 0x00. -/
theorem readOnlyAndReservedWritesAreIgnored : Obligations.ReadOnlyAndReservedWritesAreIgnored := by
  intro s off v q hq hoff
  obtain ⟨hcmd, hplace⟩ := locate_readOnly hoff
  refine ⟨?_, fun hreserved => memRead_at (locate_reserved hreserved) rfl⟩
  rw [step_of_event hq, serve_write hcmd, State.writeOperand, putAt_of_not_operandPlace hplace]
  rfl

/-! ### Operands put together from their bytes -/

/-- The last byte joined is byte 0 (R44). -/
@[simp] theorem byteOf_append_zero {w : Nat} (x : BitVec w) (b : Byte) : byteOf (x ++ b) 0 = b :=
  BitVec.extractLsb'_append_eq_right

/-- Joining a byte moves every byte before it one place up (R44). -/
@[simp] theorem byteOf_append_succ {w : Nat} (x : BitVec w) (b : Byte) (k : Nat) :
    byteOf (x ++ b) (k + 1) = byteOf x k := by
  apply BitVec.eq_of_getLsbD_eq
  intro i hi
  rw [getLsbD_byteOf, getLsbD_byteOf, BitVec.getLsbD_append, if_neg (by omega),
    show 8 * (k + 1) + i - 8 = 8 * k + i by omega]

@[simp] theorem byteOf_byte (b : Byte) : byteOf b 0 = b := BitVec.extractLsb'_eq_self

/-- The number a register stands for has the register's bytes, in any wider word (R44, R72). -/
@[simp] theorem byteOf_ofInt_toInt {w v k : Nat} (x : BitVec w) (hk : 8 * k + 8 ≤ w) (hv : w ≤ v) :
    byteOf (BitVec.ofInt v x.toInt) k = byteOf x k := by
  apply BitVec.eq_of_getLsbD_eq
  intro i hi
  rw [← BitVec.signExtend, getLsbD_byteOf, getLsbD_byteOf, BitVec.getLsbD_signExtend, if_pos (by omega)]
  simp [show 8 * k + i < v by omega]

/-- The address of eight bytes, the first least significant (R63). -/
def addrOfBytes (a : Fin 8 → Byte) : Addr := a 7 ++ a 6 ++ a 5 ++ a 4 ++ a 3 ++ a 2 ++ a 1 ++ a 0

/-- The script line that writes the address writes its bytes, lowest offset first (R63, R69). -/
theorem events_wr_addrOfBytes (a : Fin 8 → Byte) :
    (ScriptLine.wr .addr (addrOfBytes a).toInt).events =
      [.write 0x10#6 (a 0), .write 0x11#6 (a 1), .write 0x12#6 (a 2), .write 0x13#6 (a 3), .write 0x14#6 (a 4),
        .write 0x15#6 (a 5), .write 0x16#6 (a 6), .write 0x17#6 (a 7)] := by
  simp [ScriptLine.events, WinReg.byteCount, WinReg.base, List.range_succ, addrOfBytes]

/-- The script line that writes two bytes joined to `ARG_D` writes the low byte first (R62, R69). -/
theorem events_wr_argD_append (hi lo : Byte) :
    (ScriptLine.wr .argD (hi ++ lo : S16).toInt).events = [.write 0x04#6 lo, .write 0x05#6 hi] := by
  simp [ScriptLine.events, WinReg.byteCount, WinReg.base, List.range_succ]

/-- The state after the host has written every byte of `ADDR` and of `ARG_D` (R37). -/
def withAddrAndArgD (a : Addr) (d : S16) (s : State) : State :=
  { s with
    operands :=
      { s.operands with
        addr := a
        argD := d
        written :=
          { s.operands.written with addr := Vector.replicate 8 true, argD := Vector.replicate 2 true } } }

/-- The ten byte writes are two script lines, each of which fills its register whatever stood there (R62, R63). -/
theorem serveAll_operandBytes (a : Fin 8 → Byte) (lo hi : Byte) (s : State) :
    serveAll
      [.write 0x10#6 (a 0), .write 0x11#6 (a 1), .write 0x12#6 (a 2), .write 0x13#6 (a 3), .write 0x14#6 (a 4),
        .write 0x15#6 (a 5), .write 0x16#6 (a 6), .write 0x17#6 (a 7), .write 0x04#6 lo, .write 0x05#6 hi] s =
      .next (withAddrAndArgD (addrOfBytes a) (hi ++ lo) s) := by
  have haddr := serveAll_wr_addr s (addrOfBytes a).toInt
  have hargD := fun t => serveAll_wr_argD t (hi ++ lo : S16).toInt
  simp only [events_wr_addrOfBytes, events_wr_argD_append, BitVec.ofInt_toInt] at haddr hargD
  exact (serveAll_append haddr).trans (hargD _)

/-- SPREAD selects the address that stands written in `ADDR` (R53, R75). -/
theorem spread_selects {s : State} (h : s.operands.isWritten .addr = true) :
    ∃ u, exec .spread s = .next u ∧ .sel s.operands.addr s.selectAnswer ∈ u.busLog := by
  obtain ⟨u, hexec⟩ := everyCommandCompletes .spread s
  obtain ⟨a, es, hlog, haddr, _⟩ := (onlyBusCommandsUseTheBus .spread s u hexec).2 rfl
  exact ⟨u, hexec, by simp [hlog, haddr h]⟩

/-- Settles O33: the ten writes are those of two script lines, and SPREAD selects what they put into `ADDR`. -/
theorem operandsAreAssembledLittleEndian : Obligations.OperandsAreAssembledLittleEndian :=
  fun s a lo hi => ⟨_, serveAll_operandBytes a lo hi s, rfl, rfl, rfl, rfl,
    spread_selects (s := withAddrAndArgD (addrOfBytes a) (hi ++ lo) s) rfl⟩

end Sys2Proof.Proofs

/-! PROOFS. The command byte: decoding and encoding agree, and what every other byte does (spec 30_encoding.md R59 to
R68). -/

namespace Sys2Proof.Proofs

open Sys2Proof.Machine Sys2Proof.Safety

/-! ### Decoding a byte -/

/-- `CMD[7:4]` above `CMD[3:0]` is the byte (R59). -/
theorem rsvField_append_opField (c : Byte) : rsvField c ++ opField c = c := by
  have hjoin : rsvField c ++ opField c = c.extractLsb' 0 (4 + 4) :=
    BitVec.extractLsb'_append_extractLsb'_eq_extractLsb' rfl
  exact hjoin.trans BitVec.extractLsb'_eq_self

theorem decodeOp_opcode (i : Instr) : decodeOp (opcode i) = .ok i := by cases i <;> rfl

/-- The eight rows of the opcode map, each from its `OP` value (R60). -/
theorem eq_opcode_of_decodeOp {op : BitVec 4} {i : Instr} (h : decodeOp op = .ok i) : op = opcode i := by
  unfold decodeOp at h
  split at h
  case h_9 => cases h
  all_goals
    next hop =>
    obtain rfl := Except.ok.inj h
    exact BitVec.eq_of_toNat_eq hop

/-- `OP` values 8 to 15 are reserved (R64). -/
theorem decodeOp_reserved {op : BitVec 4} (h : 8 ≤ op.toNat) : decodeOp op = .error .reservedOp := by
  unfold decodeOp
  split
  case h_9 => rfl
  all_goals omega

theorem decode_of_rsvField_eq_zero {c : Byte} (h : rsvField c = 0) : decode c = decodeOp (opField c) :=
  if_neg (not_not_intro h)

theorem decode_of_rsvField_ne_zero {c : Byte} (h : rsvField c ≠ 0) : decode c = .error .reservedBits :=
  if_pos h

theorem encodingFields (i : Instr) : Laws.EncodingFields.Statement i := by
  cases i
  exacts [Laws.EncodingFields.nop, Laws.EncodingFields.spread, Laws.EncodingFields.spwrite,
    Laws.EncodingFields.spstore, Laws.EncodingFields.sprecall, Laws.EncodingFields.tdecode,
    Laws.EncodingFields.almenc, Laws.EncodingFields.almdec]

theorem decode_encode (i : Instr) : decode (encode i) = .ok i := by
  obtain ⟨hrsv, hop, _⟩ := encodingFields i
  rw [decode_of_rsvField_eq_zero hrsv, hop, decodeOp_opcode]

/-- Settles O2: a byte with reserved bits decodes to nothing, and one without them is its `OP` value. -/
theorem decodeAgreesWithEncode : Obligations.DecodeAgreesWithEncode := by
  refine fun c i => ⟨fun h => ?_, fun h => h ▸ decode_encode i⟩
  by_cases hrsv : rsvField c = 0
  · rw [decode_of_rsvField_eq_zero hrsv] at h
    rw [← rsvField_append_opField c, hrsv, eq_opcode_of_decodeOp h, encode]
  · rw [decode_of_rsvField_ne_zero hrsv] at h
    cases h

/-- A byte with a reserved operation under clear reserved bits is rejected for its operation (R64). -/
theorem decode_of_reservedOp {c : Byte} (hrsv : rsvField c = 0) (hop : 8 ≤ (opField c).toNat) :
    decode c = .error .reservedOp :=
  (decode_of_rsvField_eq_zero hrsv).trans (decodeOp_reserved hop)

/-- A byte with a reserved bit or a reserved operation is no command (R64, R65). -/
theorem decode_reserved {c : Byte} (h : rsvField c ≠ 0 ∨ 8 ≤ (opField c).toNat) : ∃ r, decode c = .error r := by
  by_cases hrsv : rsvField c = 0
  · exact ⟨_, decode_of_reservedOp hrsv (h.resolve_left (not_not_intro hrsv))⟩
  · exact ⟨_, decode_of_rsvField_ne_zero hrsv⟩

/-- Settles O1: eight bytes are encodings, two have a reserved operation, two a reserved bit. -/
theorem opcodeMapWordsDecode : Obligations.OpcodeMapWordsDecode :=
  ⟨decode_encode .nop, decode_encode .spread, decode_encode .spwrite, decode_encode .spstore, decode_encode .sprecall,
    decode_encode .tdecode, decode_encode .almenc, decode_encode .almdec, decode_of_reservedOp rfl (by decide),
    decode_of_reservedOp rfl (by decide), decode_of_rsvField_ne_zero (by decide),
    decode_of_rsvField_ne_zero (by decide)⟩

/-! ### Writing a byte that is no command -/

theorem writeCmd_error {c : Byte} {r : DecodeReject} (h : decode c = .error r) (s : State) :
    writeCmd c s = .next (s.report .illegalCommand) := by
  simp [writeCmd, h]

/-- Settles O4: the byte decodes to no command, and its write reports the error alone. -/
theorem reservedCommandBytesRaiseIllegalCommand : Obligations.ReservedCommandBytesRaiseIllegalCommand := by
  intro s c q hq hreserved
  obtain ⟨r, hdecode⟩ := decode_reserved hreserved
  rw [step_of_event hq, serve_write_cmd, writeCmd_error hdecode]
  rfl

end Sys2Proof.Proofs

/-! PROOFS. What the host gets from READTEMP, SetThresholds and GetThresholds (spec 30_encoding.md R70, R71). -/

namespace Sys2Proof.Proofs

open Sys2Proof.Machine Sys2Proof.Safety

/-! ### Commands in a script: the writes of the operands, then the command (R70) -/

/-- A command at the end of a script whose writes leave its operands written. -/
theorem serveAll_append_command {es : List HostEvent} {i : Instr} {s t : State} (h : serveAll es s = .next t)
    (hready : OperandsReady i t) :
    serveAll (es ++ (ScriptLine.command i).events) s = .next (runOf i t.operands t) := by
  rw [serveAll_append h, serveAll_command (decode_encode i), exec_of_ready hready]

/-- The state after the host has written the address and run SPREAD. -/
def afterSpread (a : Int) (s : State) : State := runOf .spread (withAddr a s).operands (withAddr a s)

theorem serveAll_spread (a : Int) (s : State) : serveAll (Pseudo.spread a).events s = .next (afterSpread a s) :=
  serveAll_append_command (serveAll_wr_addr s a) (operandsReady_spread_withAddr a s)

theorem afterSpread_err_notFound (a : Int) {s : State} (h : s.selectAnswer = .notFound) :
    (afterSpread a s).err = .deviceNotFound := by
  rw [afterSpread, runOf_spread_notFound _ (s := withAddr a s) h, report_err]

/-- A SPREAD whose bytes do not verify raises CrcMismatch (R75). -/
theorem afterSpread_err_mismatch (a : Int) {s : State} (hfound : s.selectAnswer = .found)
    (hcrc : crcOf Config.params (receivedBytes s) ≠ (receivedBytes s)[8]) :
    (afterSpread a s).err = .crcMismatch := by
  simp [afterSpread, runOf_spread_found _ (s := withAddr a s) hfound, spreadFound_eq, hcrc]

/-- A SPREAD whose bytes verify leaves them in `SP`, valid, and raises nothing (R75). -/
theorem afterSpread_verified (a : Int) {s : State} (hfound : s.selectAnswer = .found)
    (hcrc : crcOf Config.params (receivedBytes s) = (receivedBytes s)[8]) :
    (afterSpread a s).sp = receivedBytes s ∧ (afterSpread a s).spValid = true ∧ (afterSpread a s).err = .ok := by
  simp [afterSpread, runOf_spread_found _ (s := withAddr a s) hfound, spreadFound_eq, hcrc]

/-! ### READTEMP's success -/

/-- Only a zero count-per-degree is malformed (R108). -/
theorem decodeTemperature_of_ne_zero {b : Vector Byte 9} (h : b[7] ≠ 0x00#8) :
    ∃ v, decodeTemperature b = .temperature v :=
  ⟨_, if_neg h⟩

theorem tdecodeRun_of_temperature {s : State} {v : S16} (hvalid : s.spValid = true)
    (hdecode : decodeTemperature s.sp = .temperature v) : tdecodeRun s = s.decodeOk v := by
  simp [tdecodeRun, hvalid, hdecode]

/-- `STATUS` after a decode: `TEMP_VALID` and `SP_VALID` beside the code 0 (R25, R26). -/
theorem status_decodeOk {s : State} (v : S16) (hsp : s.spValid = true) (hpu : s.strongPuReq = false) :
    (s.decodeOk v).status = 0x18#8 := by
  simp [State.status, hsp, hpu, ErrCode.code]

/-- Settles O42: SPREAD leaves the verified bytes, TDECODE their temperature, and the three reads give both. -/
theorem readtempDeliversTheTemperature : Obligations.ReadtempDeliversTheTemperature := by
  intro s a _ hfound hcrc hcount
  obtain ⟨hsp, hvalid, _⟩ := afterSpread_verified a hfound hcrc
  obtain ⟨v, hdecode⟩ := decodeTemperature_of_ne_zero hcount
  have hcommands : afterReadtempCommands a s = (afterSpread a s).decodeOk v :=
    tdecodeRun_of_temperature hvalid (hsp.symm ▸ hdecode)
  refine ⟨_, v, serveAll_readtemp a s, hdecode, ?_, ?_⟩
  · rw [hcommands]; rfl
  · rw [answerStatusAndTemp_reads, hcommands, status_decodeOk v hvalid (runOf_spread_strongPuReq _ _), decodeOk_temp,
      decodeOk_host, afterSpread, runOf_spread_host, withAddr_host]

/-! ### Sign-magnitude bytes (R14, R98, R100) -/

theorem toNat_lowSevenBits (b : Byte) : (b &&& 0x7F).toNat = b.toNat % 128 :=
  (BitVec.toNat_and ..).trans (Nat.and_two_pow_sub_one_eq_mod b.toNat 7)

theorem toNat_ofInt_byte_mod (d : Int) : ((BitVec.ofInt 8 d).toNat % 128 : Int) = d % 128 := by
  rw [BitVec.toNat_ofInt]; omega

/-- Degrees from 0 up encode as their low seven bits (R98, R99). -/
theorem toNat_alarmEncode_of_nonneg {d : Int} (h : 0 ≤ d) : ((alarmEncode d).toNat : Int) = d % 128 := by
  rw [alarmEncode, if_pos h, toNat_lowSevenBits]
  exact_mod_cast toNat_ofInt_byte_mod d

/-- Degrees below 0 encode as the low seven bits of the magnitude under the sign bit (R98, R99). -/
theorem toNat_alarmEncode_of_neg {d : Int} (h : d < 0) : ((alarmEncode d).toNat : Int) = 128 + (-d) % 128 := by
  have hor := Nat.two_pow_add_eq_or_of_lt (i := 7) (b := (BitVec.ofInt 8 (-d) &&& 0x7F).toNat)
    (by rw [toNat_lowSevenBits]; omega) 1
  have hmod := toNat_ofInt_byte_mod (-d)
  rw [alarmEncode, if_neg (by omega), BitVec.toNat_or]
  rw [show (0x80 : Byte).toNat = 2 ^ 7 * 1 from rfl, ← hor, toNat_lowSevenBits]
  omega

/-- In range, the byte's sign and magnitude are those of the degrees. -/
theorem signMagnitude_alarmEncode {d : Int} (hlow : -127 ≤ d) (hhigh : d ≤ 127) :
    signMagnitude (alarmEncode d) = d := by
  unfold signMagnitude
  rcases Int.lt_or_le d 0 with h | h
  · have hbyte := toNat_alarmEncode_of_neg h
    split <;> omega
  · have hbyte := toNat_alarmEncode_of_nonneg h
    split <;> omega

/-- The decoder gives the number the byte stands for (R100). -/
theorem alarmDecode_eq_signMagnitude (b : Byte) : alarmDecode b = signMagnitude b := by
  have hlt := b.isLt
  have hsign : b.getLsbD 7 = decide (128 ≤ b.toNat) := BitVec.msb_eq_decide b
  rw [alarmDecode, signMagnitude, hsign, toNat_lowSevenBits]
  by_cases h : 128 ≤ b.toNat
  · simp only [h, decide_true, if_true]; omega
  · simp only [h, decide_false, if_false, Bool.false_eq_true]; omega

/-! ### What the host has read -/

@[simp] theorem lastRead_answerRead (off : WinOff) (s : State) : (s.answerRead off).lastRead = s.memRead off := by
  simp [State.lastRead]

/-- The last two reads make a 16-bit register, the low byte read first (R44). -/
theorem lastRead16_answerRead (lo hi : WinOff) (s : State) :
    ((s.answerRead lo).answerRead hi).lastRead16 = (s.answerRead lo).memRead hi ++ s.memRead lo := by
  simp [State.lastRead16]

/-- A byte the host has read stands for itself when it is written back (R72). -/
@[simp] theorem ofInt_toNat_byte (b : Byte) : BitVec.ofInt 8 (b.toNat : Int) = b := by
  rw [BitVec.ofInt_natCast, BitVec.ofNat_toNat, BitVec.setWidth_eq]

/-! ### SetThresholds -/

/-- The state after the host has written both bytes of `ARG_D` (R62). -/
def withArgD (d : Int) (s : State) : State :=
  { s with
    operands :=
      { s.operands with
        argD := BitVec.ofInt 16 d
        written := { s.operands.written with argD := Vector.replicate 2 true } } }

theorem operandsReady_almenc_withArgD (d : Int) (s : State) : OperandsReady .almenc (withArgD d s) := by
  intro r hr
  obtain rfl : r = .argD := by simpa [operandsOf] using hr
  rfl

theorem serveAll_almenc (d : Int) (s : State) :
    serveAll (Pseudo.almenc d).events s = .next (almencRun (withArgD d s).operands (withArgD d s)) :=
  serveAll_append_command (serveAll_wr_argD s d) (operandsReady_almenc_withArgD d s)

/-- One threshold of SetThresholds: the host reads its sign-magnitude byte, and nothing reaches the bus (R71). -/
theorem serveAll_almenc_resByte {d : Int} (hlow : -127 ≤ d) (hhigh : d ≤ 127) (s : State) :
    ∃ t, serveAll ((Pseudo.almenc d).events ++ (ScriptLine.rd .resByte).events) s = .next t ∧
      t.lastRead = alarmEncode d ∧ t.busLog = s.busLog ∧ t.strongPuReq = s.strongPuReq ∧
      t.selectAnswer = s.selectAnswer := by
  have hint : (BitVec.ofInt 16 d).toInt = d := BitVec.toInt_ofInt_eq_self (by omega) (by omega) (by omega)
  refine ⟨_, serveAll_append (serveAll_almenc d s), ?_, rfl, rfl, rfl⟩
  have hread := lastRead_answerRead 0x07#6 (almencRun (withArgD d s).operands (withArgD d s))
  rw [memRead_at locate_resByte rfl] at hread
  exact hread.trans (congrArg alarmEncode hint)

/-- The state after the host has written SPWRITE's three operand registers. -/
def withSpwriteOperands (a : Addr) (h l : Byte) (s : State) : State :=
  { s with
    operands :=
      { s.operands with
        addr := a
        argHi := h
        argLo := l
        written :=
          { s.operands.written with addr := Vector.replicate 8 true, argHi := true, argLo := true } } }

theorem operandsReady_withSpwriteOperands (a : Addr) (h l : Byte) (s : State) :
    OperandsReady .spwrite (withSpwriteOperands a h l s) := by
  intro r hr
  obtain rfl | rfl | rfl : r = .addr ∨ r = .argHi ∨ r = .argLo := by simpa [operandsOf] using hr
  all_goals rfl

/-- The three operand writes of SPWRITE fill their registers (R69, R70). -/
theorem serveAll_wr_spwriteOperands (a : Int) (h l : Byte) (s : State) :
    serveAll ((ScriptLine.wr .addr a).events ++ ((ScriptLine.wr .argHi h.toNat).events ++
      (ScriptLine.wr .argLo l.toNat).events)) s = .next (withSpwriteOperands (BitVec.ofInt 64 a) h l s) := by
  rw [serveAll_append (serveAll_wr_addr s a), serveAll_append (serveAll_wr_argHi _ _), serveAll_wr_argLo,
    ofInt_toNat_byte, ofInt_toNat_byte]
  rfl

/-- What SPWRITE of a device that answers reports and sends (R81). -/
theorem runOf_spwrite_found (o : OperandRegs) {s : State} (h : s.selectAnswer = .found) :
    (runOf .spwrite o s).err = .ok ∧
      (runOf .spwrite o s).busLog = s.busLog ++ releaseEntries s.strongPuReq ++
        [.sel o.addr .found, .wr Config.params.opWriteSp, .wr o.argHi, .wr o.argLo] := by
  simp [runOf_bus_found (i := .spwrite) rfl o h, foundOf, spwriteFound_eq, h]

/-- SPWRITE in a script sends both threshold bytes to the address written (R70, R81). -/
theorem serveAll_spwrite_found (a : Int) (h l : Byte) {s : State} (hfound : s.selectAnswer = .found) :
    ∃ t, serveAll (Pseudo.spwrite a h.toNat l.toNat).events s = .next t ∧ t.err = .ok ∧
      t.busLog = s.busLog ++ releaseEntries s.strongPuReq ++
        [.sel (BitVec.ofInt 64 a) .found, .wr Config.params.opWriteSp, .wr h, .wr l] :=
  ⟨_, serveAll_append_command (serveAll_wr_spwriteOperands a h l s) (operandsReady_withSpwriteOperands _ h l s),
    runOf_spwrite_found _ (s := withSpwriteOperands (BitVec.ofInt 64 a) h l s) hfound⟩

/-- Settles O43: both thresholds are encoded without touching the bus, and SPWRITE sends the two bytes read. -/
theorem setThresholdsSendsBothThresholds : Obligations.SetThresholdsSendsBothThresholds := by
  intro s a h l _ hhlow hhhigh hllow hlhigh hfound
  obtain ⟨s1, hrun1, hread1, hlog1, hpull1, hsel1⟩ := serveAll_almenc_resByte hhlow hhhigh s
  obtain ⟨s2, hrun2, hread2, hlog2, hpull2, hsel2⟩ := serveAll_almenc_resByte hllow hlhigh s1
  obtain ⟨t, hrun, herr, hlog⟩ := serveAll_spwrite_found a s1.lastRead s2.lastRead (hsel2.trans (hsel1.trans hfound))
  refine ⟨t, s1.lastRead, s2.lastRead, ?_, herr, ?_, ?_, ?_⟩
  · rw [setThresholds, andThen_of_next hrun1, andThen_of_next hrun2, hrun]
  · rw [hread1, signMagnitude_alarmEncode hhlow hhhigh]
  · rw [hread2, signMagnitude_alarmEncode hllow hlhigh]
  · rw [hlog, hlog2, hlog1, hpull2, hpull1]

/-! ### GetThresholds -/

/-- The state after the host has written `ARG_B`. -/
def withArgB (b : Byte) (s : State) : State :=
  { s with
    operands := { s.operands with argB := b, written := { s.operands.written with argB := true } } }

theorem operandsReady_almdec_withArgB (b : Byte) (s : State) : OperandsReady .almdec (withArgB b s) := by
  intro r hr
  obtain rfl : r = .argB := by simpa [operandsOf] using hr
  rfl

theorem serveAll_almdec (b : Byte) (s : State) :
    serveAll (Pseudo.almdec b.toNat).events s = .next (almdecRun (withArgB b s).operands (withArgB b s)) := by
  have hwr : serveAll (ScriptLine.wr .argB b.toNat).events s = .next (withArgB b s) := by
    rw [serveAll_wr_argB, ofInt_toNat_byte]; rfl
  exact serveAll_append_command hwr (operandsReady_almdec_withArgB b s)

/-- `RES_DEG` after ALMDEC, as a number (R100, R101). -/
theorem toInt_ofInt_alarmDecode (b : Byte) : (BitVec.ofInt 16 (alarmDecode b)).toInt = signMagnitude b := by
  obtain ⟨hlow, hhigh⟩ := alarmDecode_mem b
  rw [BitVec.toInt_ofInt_eq_self (by omega) (by omega) (by omega), alarmDecode_eq_signMagnitude]

/-- The host reads the degrees of a byte; the scratchpad stays as it is (R100, R101). -/
theorem serveAll_almdec_resDeg (b : Byte) (s : State) :
    ∃ t, serveAll ((Pseudo.almdec b.toNat).events ++ (ScriptLine.rd .resDeg).events) s = .next t ∧
      t.spValid = s.spValid ∧ t.sp = s.sp ∧ t.lastRead16.toInt = signMagnitude b := by
  refine ⟨_, serveAll_append (serveAll_almdec b s), rfl, rfl, ?_⟩
  have hread := lastRead16_answerRead 0x08#6 0x09#6 (almdecRun (withArgB b s).operands (withArgB b s))
  rw [memRead_at (l := .resDeg 1) (by decide) rfl, memRead_at (l := .resDeg 0) (by decide) rfl] at hread
  have hdeg := hread.trans (byteOf_append_byteOf (BitVec.ofInt 16 (alarmDecode b)))
  exact (congrArg BitVec.toInt hdeg).trans (toInt_ofInt_alarmDecode b)

theorem events_rd_sp (i : Fin 9) : (ScriptLine.rd (.sp i)).events = [.read (BitVec.ofNat 6 (0x18 + i.val))] := by
  revert i; decide

/-- One threshold of GetThresholds from a valid scratchpad, which stays as it is (R71). -/
theorem readThreshold_of_spValid (i : Fin 9) {s : State} (h : s.spValid = true) :
    ∃ t, readThreshold i s = .next t ∧ t.spValid = true ∧ t.sp = s.sp ∧
      t.lastRead16.toInt = signMagnitude s.sp[i] := by
  have hread : (s.answerRead (BitVec.ofNat 6 (0x18 + i.val))).lastRead = s.sp[i] := by
    rw [lastRead_answerRead, memRead_at (locate_sp i) h]; rfl
  obtain ⟨t, hrun, hvalid, hsp, hdeg⟩ := serveAll_almdec_resDeg s.sp[i] (s.answerRead (BitVec.ofNat 6 (0x18 + i.val)))
  refine ⟨t, ?_, hvalid.trans h, hsp, hdeg⟩
  rw [readThreshold, events_rd_sp, andThen_of_next (serveAll_read _ _), hread, hrun]

/-- The host reads `ERR` as the low bits of `STATUS` (R25). -/
theorem lastRead_status_err (s : State) : (s.answerRead 0x01#6).lastRead.extractLsb' 0 3 = s.err.code := by
  obtain ⟨herr, _⟩ := status_fields s
  rw [lastRead_answerRead, memRead_status, herr]

theorem serveAll_spread_status (a : Int) (s : State) :
    serveAll ((Pseudo.spread a).events ++ (ScriptLine.rd .status).events) s =
      .next ((afterSpread a s).answerRead 0x01#6) :=
  serveAll_append (serveAll_spread a s)

/-- GetThresholds ends with the error of its SPREAD, if it raised one (R71). -/
theorem getThresholds_of_err {a : Int} {s : State} {e : ErrCode} (he : (afterSpread a s).err = e) (hne : e.code ≠ 0) :
    ∃ t, getThresholds a s = .next (t, .failed e.code) := by
  refine ⟨(afterSpread a s).answerRead 0x01#6, ?_⟩
  rw [getThresholds, andThen_of_next (serveAll_spread_status a s), lastRead_status_err, he, if_pos hne]

/-- GetThresholds after a SPREAD that verified gives the degrees of `SP[2]` and `SP[3]` (R71, R94). -/
theorem getThresholds_of_ok {a : Int} {s : State} (hok : (afterSpread a s).err = .ok)
    (hvalid : (afterSpread a s).spValid = true) :
    ∃ t, getThresholds a s =
      .next (t, .thresholds (signMagnitude (afterSpread a s).sp[2]) (signMagnitude (afterSpread a s).sp[3])) := by
  obtain ⟨s2, hrun2, hvalid2, hsp2, hdeg2⟩ :=
    readThreshold_of_spValid 2 (s := (afterSpread a s).answerRead 0x01#6) hvalid
  obtain ⟨s3, hrun3, _, _, hdeg3⟩ := readThreshold_of_spValid 3 hvalid2
  have hcode : ¬ErrCode.ok.code ≠ 0 := by decide
  refine ⟨s3, ?_⟩
  rw [getThresholds, andThen_of_next (serveAll_spread_status a s), lastRead_status_err, hok,
    if_neg hcode, andThen_of_next hrun2, andThen_of_next hrun3, hdeg2, hdeg3, hsp2]
  rfl

/-- Settles O44: a failed selection or check ends with its code, otherwise both bytes of the scratchpad are decoded. -/
theorem getThresholdsReadsBothThresholds : Obligations.GetThresholdsReadsBothThresholds := by
  intro s a _
  refine ⟨fun hnot => ?_, fun hfound hcrc => ?_, fun hfound hcrc => ?_⟩
  · exact getThresholds_of_err (afterSpread_err_notFound a hnot) (by decide)
  · exact getThresholds_of_err (afterSpread_err_mismatch a hfound hcrc) (by decide)
  · obtain ⟨hsp, hvalid, hok⟩ := afterSpread_verified a hfound hcrc
    exact hsp ▸ getThresholds_of_ok hok hvalid

end Sys2Proof.Proofs

/-! PROOFS. The scratchpad transfer: the CRC check and the result of each bus command on every path (spec
40_scratchpad_transfer.md R73 to R90). -/

namespace Sys2Proof.Proofs

open Sys2Proof.Machine Sys2Proof.Safety

/-! ### A bus command on every path -/

/-- In the strict reading a command whose one operand is unwritten records that operand and does nothing else (R128). -/
theorem strictExec_of_single_unwritten {i : Instr} {r : OperandReg} {s : State} (hi : operandsOf i = [r])
    (hnone : s.faultRec = none) (hw : s.operands.isWritten r = false) :
    strictExec i s = .next { s with faultRec := some (.unwrittenOperand i r) } := by
  obtain ⟨r', hr', _, hstrict, _⟩ := unwrittenOperandIsRecordedAndStopsTheRun i s r hnone (by simp [hi]) hw
  obtain rfl : r' = r := by simpa [hi] using hr'
  exact hstrict

theorem operandsReady_of_single {i : Instr} {r : OperandReg} {s : State} (hi : operandsOf i = [r])
    (hw : s.operands.isWritten r = true) : OperandsReady i s := by
  simpa [OperandsReady, hi] using hw

/-- With no device a bus command ends right after its selection (R73, R118). -/
theorem exec_bus_notFound {i : Instr} {s : State} (hb : isBusCommand i = true) (hready : OperandsReady i s)
    (hnot : s.selectAnswer = .notFound) :
    exec i s = .next { afterSelect s.operands.addr s with err := .deviceNotFound } := by
  rw [exec_of_ready hready, runOf_bus_notFound hb _ hnot]; rfl

/-- With a device a bus command goes on with its own requests, in the state its selection left (R73). -/
theorem exec_bus_found {i : Instr} {s : State} (hb : isBusCommand i = true) (hready : OperandsReady i s)
    (hfound : s.selectAnswer = .found) :
    exec i s = .next (foundOf i s.operands (afterSelect s.operands.addr s)) := by
  rw [exec_of_ready hready, runOf_bus_found hb _ hfound]

/-- The log after a found selection and the requests that follow it (R53, R73). -/
theorem afterSelect_busLog_append (a : Addr) {s : State} (hfound : s.selectAnswer = .found) (es : List BusEvent) :
    (afterSelect a s).busLog ++ es = s.busLog ++ releaseEntries s.strongPuReq ++ .sel a .found :: es := by
  rw [afterSelect_busLog, hfound, List.append_assoc]; rfl

/-- Every path of a bus command whose one operand is `ADDR` (R61, R118, R128). -/
theorem addrCommand_paths {i : Instr} (hb : isBusCommand i = true) (hi : operandsOf i = [.addr]) (s : State) :
    (s.faultRec = none → s.operands.isWritten .addr = false →
      strictExec i s = .next { s with faultRec := some (.unwrittenOperand i .addr) }) ∧
    (s.operands.isWritten .addr = true → s.selectAnswer = .notFound →
      exec i s = .next { afterSelect s.operands.addr s with err := .deviceNotFound }) ∧
    (s.operands.isWritten .addr = true → s.selectAnswer = .found →
      exec i s = .next (foundOf i s.operands (afterSelect s.operands.addr s))) := by
  refine ⟨strictExec_of_single_unwritten hi, fun hw hnot => ?_, fun hw hfound => ?_⟩
  · exact exec_bus_notFound hb (operandsReady_of_single hi hw) hnot
  · exact exec_bus_found hb (operandsReady_of_single hi hw) hfound

/-! ### SPREAD -/

/-- Settles O10: the paths of `addrCommand_paths`, and on a found device the two answers of the comparison. -/
theorem spreadReadsNineBytesAndVerifies : Obligations.SpreadReadsNineBytesAndVerifies := by
  refine ⟨rfl, fun s => ?_⟩
  obtain ⟨hstrict, hnot, hrun⟩ := addrCommand_paths (i := .spread) rfl rfl s
  refine ⟨hstrict, hnot, fun hw hfound hcrc => ?_, fun hw hfound hcrc => ?_⟩
  · rw [hrun hw hfound, foundOf, spreadFound_eq, afterSelect_busLog_append _ hfound, nineAnswers_afterSelect,
      if_neg hcrc, if_neg hcrc]
    rfl
  · rw [hrun hw hfound, foundOf, spreadFound_eq, afterSelect_busLog_append _ hfound, nineAnswers_afterSelect,
      if_pos hcrc, if_pos hcrc]
    rfl

/-! ### SPWRITE, SPSTORE and SPRECALL -/

/-- Settles O11: the fault in the strict reading, the failed selection, and the three bytes sent. -/
theorem spwriteSendsHighThenLow : Obligations.SpwriteSendsHighThenLow := by
  refine ⟨rfl, fun s => ⟨fun hnone hex => ?_, fun hready hnot => exec_bus_notFound rfl hready hnot,
    fun hready hfound => ?_⟩⟩
  · obtain ⟨r, hr, hw⟩ := hex
    obtain ⟨r', hr', hw', hstrict, _⟩ := unwrittenOperandIsRecordedAndStopsTheRun .spwrite s r hnone hr hw
    exact ⟨r', hr', hw', hstrict⟩
  · rw [exec_bus_found rfl hready hfound, foundOf, spwriteFound_eq, afterSelect_busLog_append _ hfound]

/-- Settles O12: the paths of `addrCommand_paths`, with the store command and its pull-up on a found device. -/
theorem spstoreRequestsStrongPullUp : Obligations.SpstoreRequestsStrongPullUp := by
  refine ⟨rfl, fun s => ?_⟩
  obtain ⟨hstrict, hnot, hrun⟩ := addrCommand_paths (i := .spstore) rfl rfl s
  refine ⟨hstrict, hnot, fun hw hfound => ?_⟩
  rw [hrun hw hfound, foundOf, spstoreFound_eq, afterSelect_busLog_append _ hfound]

/-- Settles O13: the paths of `addrCommand_paths`, with the recall command byte on a found device. -/
theorem sprecallSendsItsCommandByte : Obligations.SprecallSendsItsCommandByte := by
  refine ⟨rfl, fun s => ?_⟩
  obtain ⟨hstrict, hnot, hrun⟩ := addrCommand_paths (i := .sprecall) rfl rfl s
  refine ⟨hstrict, hnot, fun hw hfound => ?_⟩
  rw [hrun hw hfound, foundOf, sprecallFound_eq, afterSelect_busLog_append _ hfound]

/-! ### The CRC check -/

/-- The bytes the CRC runs over, in order (R74). -/
theorem take_eight_toList (b : Vector Byte 9) :
    b.toList.take 8 = [b[0], b[1], b[2], b[3], b[4], b[5], b[6], b[7]] := by
  refine List.ext_getElem (by simp) fun i hi _ => ?_
  have hi8 : i < 8 := by simpa using hi
  interval_cases i <;> simp

/-- The CRC does not see the ninth byte (R74). -/
theorem crcOf_set_eight (p : Params) (b : Vector Byte 9) (x : Byte) : crcOf p (b.set 8 x) = crcOf p b := by
  simp [crcOf, take_eight_toList]

/-- Settles O9: the fold over the eight bytes, which leaves the ninth out, and the comparison with the ninth. -/
theorem crcFoldsTheFirstEightBytes : Obligations.CrcFoldsTheFirstEightBytes := by
  refine fun p b => ⟨crcOf_set_eight p b, ?_, beq_iff_eq⟩
  rw [crcOf, take_eight_toList]
  rfl

end Sys2Proof.Proofs

/-! PROOFS. The scratchpad's fields and the local commands: ALMENC, ALMDEC, NOP, what TDECODE reads, and the causes of
every error (spec 41_field_extraction.md R91 to R103, 60_exceptions.md R117 to R122). -/

namespace Sys2Proof.Proofs

open Sys2Proof.Machine Sys2Proof.Safety

/-! ### NOP, ALMENC and ALMDEC -/

/-- Settles O8: the decoder's row for 0x00, and NOP's empty meaning. -/
theorem nopChangesNothing : Obligations.NopChangesNothing :=
  ⟨decode_encode .nop, exec_of_no_operands rfl⟩

/-- Settles O15: the fault in the strict reading, and the byte of `alarmEncode` under each sign. -/
theorem almencEncodesSignMagnitude : Obligations.AlmencEncodesSignMagnitude := by
  refine ⟨decode_encode .almenc, fun s => ⟨strictExec_of_single_unwritten rfl, fun hw => ?_⟩⟩
  exact ⟨alarmEncode s.operands.argD.toInt, exec_of_ready (operandsReady_of_single rfl hw),
    toNat_alarmEncode_of_nonneg, toNat_alarmEncode_of_neg⟩

/-- No byte stands for more than 127 degrees under either sign (R14). -/
theorem signMagnitude_mem (b : Byte) : -127 ≤ signMagnitude b ∧ signMagnitude b ≤ 127 :=
  alarmDecode_eq_signMagnitude b ▸ alarmDecode_mem b

/-- Settles O16: the fault in the strict reading, and the sign-extended degrees of the byte. -/
theorem almdecDecodesSignMagnitude : Obligations.AlmdecDecodesSignMagnitude := by
  refine ⟨decode_encode .almdec, fun s => ⟨strictExec_of_single_unwritten rfl, fun hw => ?_⟩⟩
  refine ⟨BitVec.ofInt 16 (alarmDecode s.operands.argB), exec_of_ready (operandsReady_of_single rfl hw),
    toInt_ofInt_alarmDecode _, ?_⟩
  rw [toInt_ofInt_alarmDecode]
  exact signMagnitude_mem _

/-! ### The alarm round trip -/

/-- A number of degrees survives encoding exactly when seven bits hold its magnitude (R99, R102). -/
theorem signMagnitude_alarmEncode_eq_iff (d : Int) : signMagnitude (alarmEncode d) = d ↔ -127 ≤ d ∧ d ≤ 127 := by
  constructor
  · intro h
    exact h ▸ signMagnitude_mem (alarmEncode d)
  · rintro ⟨hlow, hhigh⟩
    exact signMagnitude_alarmEncode hlow hhigh

/-- Settles O23: both scripts complete, and `RES_DEG` holds the degrees of the byte that ALMENC made of the operand. -/
theorem alarmRoundTripThroughTheRegisters : Obligations.AlarmRoundTripThroughTheRegisters := by
  intro s d hlow hhigh
  have hint : (BitVec.ofInt 16 d).toInt = d := BitVec.toInt_ofInt_eq_self (by omega) (by omega) (by omega)
  have hdeg : (BitVec.ofInt 16 (alarmDecode (alarmEncode (BitVec.ofInt 16 d).toInt))).toInt =
      signMagnitude (alarmEncode d) := by rw [toInt_ofInt_alarmDecode, hint]
  refine ⟨_, _, serveAll_almenc d s, serveAll_almdec _ _, ?_, ?_⟩
  · exact hdeg ▸ signMagnitude_alarmEncode_eq_iff d
  · rintro rfl
    exact hdeg

/-! ### What TDECODE reads -/

/-- The decoder sees bytes 0, 6 and 7 and whether byte 1 is zero (R93, R97, R105). -/
theorem decodeTemperature_congr {b p : Vector Byte 9} (h0 : b[0] = p[0]) (h1 : b[1] = 0x00#8 ↔ p[1] = 0x00#8)
    (h6 : b[6] = p[6]) (h7 : b[7] = p[7]) : decodeTemperature b = decodeTemperature p := by
  have hneg : negativeReading (fieldsOf b) = negativeReading (fieldsOf p) := decide_eq_decide.2 (not_congr h1)
  have hlsb : (fieldsOf b).tempLsb = (fieldsOf p).tempLsb := h0
  have hbase : baseCount (fieldsOf b) = baseCount (fieldsOf p) := by simp only [baseCount, hneg, hlsb]
  have hremain : (fieldsOf b).countRemain = (fieldsOf p).countRemain := h6
  have hcount : (fieldsOf b).countPerDegree = (fieldsOf p).countPerDegree := h7
  have hcorrection : correction (fieldsOf b) = correction (fieldsOf p) := by simp only [correction, hremain, hcount]
  simp only [decodeTemperature, tenthsOfDegree, millidegrees, hbase, hcorrection, hcount]

theorem tdecodeRun_of_malformed {s : State} (hvalid : s.spValid = true)
    (hdecode : decodeTemperature s.sp = .malformedScratchpad) :
    tdecodeRun s = s.decodeFailed .malformedScratchpad := by
  simp [tdecodeRun, hvalid, hdecode]

/-- TDECODE of another scratchpad that decodes to the same writes the same results beside it. -/
theorem tdecodeRun_with_sp {s : State} {b : Vector Byte 9} (h : decodeTemperature b = decodeTemperature s.sp) :
    tdecodeRun { s with sp := b } = { tdecodeRun s with sp := b } := by
  rcases tdecodeRun_cases s with ⟨hv, hrun⟩ | ⟨hv, hd, hrun⟩ | ⟨v, hv, hd, hrun⟩ <;> rw [hrun]
  · exact tdecodeRun_of_not_spValid hv
  · exact tdecodeRun_of_malformed hv (h.trans hd)
  · exact tdecodeRun_of_temperature hv (h.trans hd)

theorem exec_tdecode (s : State) : exec .tdecode s = .next (tdecodeRun s) := exec_of_no_operands rfl s

/-- Settles O20: equal decodes give equal results beside the scratchpad. -/
theorem tdecodeReadsOnlyItsFields : Obligations.TdecodeReadsOnlyItsFields := by
  intro s t b h0 h1 h6 h7 hexec
  obtain rfl : tdecodeRun s = t := Host.Outcome.next.inj ((exec_tdecode s).symm.trans hexec)
  rw [exec_tdecode, tdecodeRun_with_sp (decodeTemperature_congr h0 h1 h6 h7)]

/-! ### The causes of every error -/

/-- Reading its operands does not change which bytes a SPREAD receives (R90). -/
@[simp] theorem markUnwritten_receivedBytes (i : Instr) (s : State) :
    receivedBytes (s.markUnwritten i) = receivedBytes s :=
  nineAnswers_congr (by simp) (by simp)

/-- The error of a bus command: its selection failed, or it is a SPREAD whose bytes do not verify (R118, R119). -/
theorem runOf_bus_err {i : Instr} (hb : isBusCommand i = true) (o : OperandRegs) (s : State) :
    (runOf i o s).err =
      if s.selectAnswer = .notFound then .deviceNotFound
      else if i = .spread ∧ crcOf Config.params (receivedBytes s) ≠ (receivedBytes s)[8] then .crcMismatch
      else .ok := by
  rcases runOf_bus_split hb o s with ⟨hs, hrun⟩ | ⟨hs, hrun⟩
  · rw [hrun, hs]; rfl
  · rw [hrun, hs]
    cases i
    case spread => simp [foundOf, spreadFound_eq, ite_not]
    case spwrite | spstore | sprecall => rfl
    all_goals cases hb

/-- The decoder refuses exactly a zero count-per-degree (R108). -/
theorem decodeTemperature_eq_malformed_iff (b : Vector Byte 9) :
    decodeTemperature b = .malformedScratchpad ↔ b[7] = 0x00#8 := by
  unfold decodeTemperature
  split
  · next h => exact iff_of_true rfl h
  · next h => exact iff_of_false nofun h

/-- The error of TDECODE: no valid scratchpad, or a malformed one (R109, R120, R121). -/
theorem tdecodeRun_err (s : State) :
    (tdecodeRun s).err =
      if s.spValid = false then .noValidScratchpad else if s.sp[7] = 0x00#8 then .malformedScratchpad else .ok := by
  simp only [← decodeTemperature_eq_malformed_iff]
  rcases tdecodeRun_cases s with ⟨hv, hrun⟩ | ⟨hv, hd, hrun⟩ | ⟨v, hv, hd, hrun⟩
  · simp [hrun, hv]
  · simp [hrun, hv, hd]
  · simp [hrun, hv, hd]

/-- Settles O18: NOP keeps `ERR`, a bus command and TDECODE end as their error lemmas say, ALMENC and ALMDEC cannot
fail. -/
theorem eachErrorHasExactlyItsCauses : Obligations.EachErrorHasExactlyItsCauses := by
  intro i s t hexec
  obtain rfl := eq_runOf_of_exec hexec
  refine ⟨fun hnop => hnop ▸ markUnwritten_err i s, fun hnop => ?_⟩
  cases hb : isBusCommand i
  · cases i
    case nop => exact absurd rfl hnop
    case tdecode =>
      simp only [runOf, tdecodeRun_err, markUnwritten_spValid, markUnwritten_sp]
      cases s.spValid
      · simp
      · by_cases hzero : s.sp[7] = 0x00#8 <;> simp [hzero]
    case almenc | almdec => simp [runOf, almencRun, almdecRun]
    all_goals cases hb
  · have htdecode : i ≠ .tdecode := by rintro rfl; cases hb
    simp only [runOf_bus_err hb, markUnwritten_selectAnswer, markUnwritten_receivedBytes]
    cases hs : s.selectAnswer
    · by_cases hbad : i = .spread ∧ crcOf Config.params (receivedBytes s) ≠ (receivedBytes s)[8]
      · simp [hbad]
      · simp [hbad, htdecode]
    · simp [htdecode]

end Sys2Proof.Proofs

/-! PROOFS. The temperature decoder: its ranges, TDECODE on every path, and two decodes of one scratchpad (spec
42_temperature_decode.md R104 to R112). -/

namespace Sys2Proof.Proofs

open Sys2Proof.Machine Sys2Proof.Safety

/-! ### The ranges of the decoder (R112) -/

/-- With no count remaining the correction's quotient is exactly 1000, whatever the divisor: the upper end (R112). -/
theorem correction_of_countRemain_eq_zero {f : ScratchpadFields} (hcount : f.countPerDegree ≠ 0)
    (hremain : f.countRemain = 0) : correction f = 750 := by
  have hne : (f.countPerDegree.toNat : Int) ≠ 0 := fun h =>
    hcount (BitVec.eq_of_toNat_eq (Int.ofNat_inj.1 h))
  have hquotient : Int.tdiv (1000 * (f.countPerDegree.toNat : Int)) f.countPerDegree.toNat = 1000 :=
    Int.mul_tdiv_cancel _ hne
  simp [correction, hremain, hquotient]

/-- The smallest divisor under the largest count remaining gives the lower end (R112). -/
theorem correction_of_extreme_counts {f : ScratchpadFields} (hcount : f.countPerDegree = 0x01#8)
    (hremain : f.countRemain = 0xFF#8) : correction f = -254250 := by
  simp [correction, hcount, hremain]

/-- `to_s16` keeps the decoder's result (R107, R112). -/
theorem decodeTemperature_exact {b : Vector Byte 9} (hcount : b[7] ≠ 0x00#8) :
    ∃ v, decodeTemperature b = .temperature v ∧ v.toInt = tenthsOfDegree (fieldsOf b) := by
  obtain ⟨hlow, hhigh⟩ := tenthsOfDegree_mem (f := fieldsOf b) hcount
  exact ⟨_, if_neg hcount, BitVec.toInt_ofInt_eq_self (by omega) (by omega) (by omega)⟩

/-- Settles O22: the bounds of the base count and the correction add up, and the result fits s16. -/
theorem decodeIntermediatesStayInRange : Obligations.DecodeIntermediatesStayInRange := by
  intro b hcount f
  have hbase := baseCount_mem f
  have hcorrection : -254250 ≤ correction f ∧ correction f ≤ 750 := correction_mem hcount
  have hdifference : -254000 ≤ 1000 * ((b[7].toNat : Int) - b[6].toNat) ∧
      1000 * ((b[7].toNat : Int) - b[6].toNat) ≤ 255000 := by
    have hpos : b[7].toNat ≠ 0 := fun h => hcount (BitVec.eq_of_toNat_eq h)
    have hcpd := b[7].isLt
    have hcr := b[6].isLt
    omega
  have hsum : -381750 ≤ millidegrees f ∧ millidegrees f ≤ 128250 := by
    unfold millidegrees
    omega
  exact ⟨hbase, hdifference, hcorrection, correction_of_countRemain_eq_zero (f := f) hcount,
    correction_of_extreme_counts (f := f), hsum, tenthsOfDegree_mem hcount, decodeTemperature_exact hcount⟩

/-! ### TDECODE on every path (R109) -/

/-- The base count, written out from the bytes (R93, R105). -/
theorem baseCount_fieldsOf (b : Vector Byte 9) :
    baseCount (fieldsOf b) =
      if b[1] = 0x00#8 then ((b[0]).toNat : Int) * 500 else ((b[0]).toNat : Int) * (-500) := by
  by_cases hzero : b[1] = 0x00#8 <;> simp [baseCount, negativeReading, fieldsOf, hzero]

/-- Settles O14: the two failures of `tdecodeRun`, and on its success the exact decode in its range. -/
theorem tdecodeComputesTheFormula : Obligations.TdecodeComputesTheFormula := by
  refine ⟨decode_encode .tdecode, fun s => ⟨fun hvalid => ?_, fun hvalid hzero => ?_, fun hvalid hcount => ?_⟩⟩
  · rw [exec_tdecode, tdecodeRun_of_not_spValid hvalid]; rfl
  · rw [exec_tdecode, tdecodeRun_of_malformed hvalid ((decodeTemperature_eq_malformed_iff _).2 hzero)]; rfl
  · obtain ⟨v, hdecode, hexact⟩ := decodeTemperature_exact hcount
    refine ⟨v, by rw [exec_tdecode, tdecodeRun_of_temperature hvalid hdecode]; rfl, ?_, ?_⟩
    · rw [← baseCount_fieldsOf]
      exact hexact
    · rw [hexact]
      exact tenthsOfDegree_mem (f := fieldsOf s.sp) hcount

/-! ### Two decodes with no bus command between (R111) -/

/-- The host event is no reset and starts no bus command. -/
def NeitherResetNorBusCommand (e : HostEvent) : Prop :=
  e ≠ .reset ∧ ∀ c i, e = .write 0x00#6 c → decode c = .ok i → isBusCommand i = false

/-- Only a reset and a bus command touch the scratchpad (R27, R30). -/
theorem serve_keeps_scratchpad {e : HostEvent} {s t : State} (he : NeitherResetNorBusCommand e)
    (h : serve e s = .next t) : t.sp = s.sp ∧ t.spValid = s.spValid := by
  obtain ⟨hreset, hlocal⟩ := he
  rcases serve_cases h with ⟨_, _, rfl⟩ | ⟨_, _, _, _, rfl⟩ | ⟨off, c, i, he, hcmd, hdecode, hexec⟩ |
    ⟨_, _, _, _, _, _, rfl⟩ | ⟨he, _⟩
  case inr.inr.inl =>
    have hb : isBusCommand i = false := hlocal c i (by rw [he, (locate_eq_cmd_iff off).1 hcmd]) hdecode
    obtain ⟨_, _, _, _, hsp, hvalid⟩ := runOf_local_bus hb s.operandValues (s.markUnwritten i)
    rw [eq_runOf_of_exec hexec, hsp, hvalid]
    exact ⟨markUnwritten_sp i s, markUnwritten_spValid i s⟩
  case inr.inr.inr.inr => exact absurd he hreset
  all_goals exact ⟨rfl, rfl⟩

/-- A script that answers a next state served its first event, then the rest. -/
theorem serveAll_cons_cases {e : HostEvent} {es : List HostEvent} {s t : State} (h : serveAll (e :: es) s = .next t) :
    ∃ u, serve e s = .next u ∧ serveAll es u = .next t := by
  cases he : serve e s with
  | next u => exact ⟨u, rfl, (serveAll_cons he).symm.trans h⟩
  | fault r => simp [serveAll, andThen, he] at h
  | refused r => simp [serveAll, andThen, he] at h

theorem serveAll_keeps_scratchpad {es : List HostEvent} {s t : State} (hes : ∀ e ∈ es, NeitherResetNorBusCommand e)
    (h : serveAll es s = .next t) : t.sp = s.sp ∧ t.spValid = s.spValid := by
  induction es generalizing s with
  | nil =>
    obtain rfl : s = t := Host.Outcome.next.inj h
    exact ⟨rfl, rfl⟩
  | cons e es ih =>
    obtain ⟨u, hserve, hrest⟩ := serveAll_cons_cases h
    obtain ⟨he, hes⟩ := List.forall_mem_cons.1 hes
    obtain ⟨hsp, hvalid⟩ := serve_keeps_scratchpad he hserve
    obtain ⟨hsp', hvalid'⟩ := ih hes hrest
    exact ⟨hsp'.trans hsp, hvalid'.trans hvalid⟩

/-- The results of TDECODE depend on the scratchpad and its validity alone (R109, R111). -/
theorem tdecodeRun_results_congr {s t : State} (hsp : t.sp = s.sp) (hvalid : t.spValid = s.spValid) :
    (tdecodeRun t).temp = (tdecodeRun s).temp ∧ (tdecodeRun t).tempValid = (tdecodeRun s).tempValid ∧
    (tdecodeRun t).err = (tdecodeRun s).err := by
  rcases tdecodeRun_cases s with ⟨hv, hrun⟩ | ⟨hv, hd, hrun⟩ | ⟨v, hv, hd, hrun⟩ <;> rw [hrun]
  · rw [tdecodeRun_of_not_spValid (hvalid.trans hv)]
    exact ⟨rfl, rfl, rfl⟩
  · rw [tdecodeRun_of_malformed (hvalid.trans hv) (hsp ▸ hd)]
    exact ⟨rfl, rfl, rfl⟩
  · rw [tdecodeRun_of_temperature (hvalid.trans hv) (hsp ▸ hd)]
    exact ⟨rfl, rfl, rfl⟩

/-- Settles O21: the first decode and the events between keep the scratchpad, on which alone the results depend. -/
theorem repeatedDecodeGivesTheSameResult : Obligations.RepeatedDecodeGivesTheSameResult := by
  intro s t u v between hbetween hfirst hmiddle hsecond
  obtain rfl : tdecodeRun s = t := Host.Outcome.next.inj ((exec_tdecode s).symm.trans hfirst)
  obtain rfl : tdecodeRun u = v := Host.Outcome.next.inj ((exec_tdecode u).symm.trans hsecond)
  obtain ⟨_, _, _, _, hspFirst, hvalidFirst⟩ := runOf_local_bus (i := .tdecode) rfl s.operands s
  obtain ⟨hsp, hvalid⟩ := serveAll_keeps_scratchpad hbetween hmiddle
  exact tdecodeRun_results_congr (hsp.trans hspFirst) (hvalid.trans hvalidFirst)

end Sys2Proof.Proofs

/-! PROOFS. A scratchpad with a corrupted ninth byte is not trusted (spec 60_exceptions.md R119, 42_temperature_decode.md
R110). -/

namespace Sys2Proof.Proofs

open Sys2Proof.Machine Sys2Proof.Safety

/-- A SPREAD receives the nine bytes that stand first in the driver's list; its selection takes none of them (R53, R76). -/
theorem receivedBytes_of_driver_bytes {s : State} {b : Vector Byte 9} {rest : List Byte}
    (h : s.driver.bytes = b.toList ++ rest) : receivedBytes s = b := by
  refine Vector.ext fun k hk => ?_
  have hbyte : (b.toList ++ rest)[k]? = some b[k] := by
    simp [List.getElem?_append_left, hk]
  rw [receivedBytes, nineAnswers_getElem, State.byteAnswer, tookSelect_driver, h, hbyte, Option.getD_some]

/-- A SPREAD that finds its device ends with the received bytes in `SP`, their CRC in `CRC_CALC`, and `SP_VALID` and `ERR`
as the ninth byte verifies (R75, R78, R119). Where `ADDR` is unwritten it runs with a free address (log entry 8). -/
theorem exec_spread_found {s : State} {b : Vector Byte 9} (hfound : s.selectAnswer = .found)
    (hbytes : receivedBytes s = b) :
    ∃ t, exec .spread s = .next t ∧ t.sp = b ∧ t.crcCalc = crcOf Config.params b ∧
      t.spValid = decide (crcOf Config.params b = b[8]) ∧
      t.err = if crcOf Config.params b = b[8] then .ok else .crcMismatch := by
  refine ⟨_, exec_eq .spread s, ?_⟩
  rw [runOf_spread_found _ ((markUnwritten_selectAnswer .spread s).trans hfound), spreadFound_eq,
    nineAnswers_afterSelect, markUnwritten_receivedBytes, hbytes]
  by_cases hcrc : crcOf Config.params b = b[8] <;> simp [hcrc]

/-- Settles O19: the CRC does not see the ninth byte, so at most one value of it verifies, and TDECODE refuses a
scratchpad that is not valid. -/
theorem corruptedNinthByteIsNeverTrusted : Obligations.CorruptedNinthByteIsNeverTrusted := by
  intro s b x rest hfound hbytes hcrc hx
  constructor
  · obtain ⟨t, hexec, hsp, -, hvalid, herr⟩ := exec_spread_found hfound (receivedBytes_of_driver_bytes hbytes)
    exact ⟨t, hexec, hvalid.trans (decide_eq_true hcrc), herr.trans (if_pos hcrc), hsp⟩
  · have hcalc : crcOf Config.params (b.set 8 x) = b[8] := (crcOf_set_eight _ b x).trans hcrc
    have hbad : crcOf Config.params (b.set 8 x) ≠ (b.set 8 x)[8] := by
      rw [hcalc, Vector.getElem_set_self]
      exact hx.symm
    obtain ⟨t, hexec, hsp, hcrcCalc, hvalid, herr⟩ :=
      exec_spread_found (s := { s with driver := { s.driver with bytes := (b.set 8 x).toList ++ rest } }) hfound
        (receivedBytes_of_driver_bytes rfl)
    have hinvalid : t.spValid = false := hvalid.trans (decide_eq_false hbad)
    refine ⟨t, hexec, hinvalid, herr.trans (if_neg hbad), hsp, hcrcCalc.trans hcalc, ?_⟩
    rw [exec_tdecode, tdecodeRun_of_not_spValid hinvalid]
    rfl

end Sys2Proof.Proofs

/-! PROOFS. Reset and waiting (spec 10_state.md R38 to R40, 70_reset_and_hazards.md R135 to R137). -/

namespace Sys2Proof.Proofs

open Sys2Proof.Machine

/-- Settles O5: a step with an empty queue serves nothing. -/
theorem idleBlockWaits : Obligations.IdleBlockWaits := by
  intro s hq
  simp only [step, advance, hq]

/-- The places to which the spec gives a value in every state: `CMD`, `STATUS`, `TEMP` and the reserved ones (R39, R41). After
a reset no other place has one (R38). -/
theorem platformReset_specified_iff (s : State) (l : WinLoc) :
    s.platformReset.specified l = true ↔ l = .cmd ∨ l = .status ∨ (∃ k, l = .temp k) ∨ l = .reserved := by
  cases l
  case cmd | status | temp | reserved => simp [State.specified]
  case argHi | argLo | argB | argD | addr =>
    have hwritten : s.platformReset.operands.written = .none := rfl
    simp [State.specified, hwritten, WrittenFlags.none]
  case sp | crcCalc | resByte | resDeg => simp [State.specified, State.platformReset, State.reset]

/-- The offsets of those places (R41). -/
theorem locate_alwaysSpecified_iff (off : WinOff) :
    (locate off = .cmd ∨ locate off = .status ∨ (∃ k, locate off = .temp k) ∨ locate off = .reserved) ↔
      off.toNat ≤ 0x01 ∨ (0x0A ≤ off.toNat ∧ off.toNat ≤ 0x0F ∧ off.toNat ≠ 0x0C) ∨ 0x21 ≤ off.toNat := by
  revert off; decide

/-- Settles O37: the step serves the reset, whose fields are those of the reset state but for the record, the driver and
the host; what has a specified value then is read off the window's layout. -/
theorem platformResetResetsTheBlock : Obligations.PlatformResetResetsTheBlock := by
  intro s q hq
  have hstep : step s = .next (s.withQueue q).platformReset := step_of_event hq
  exact ⟨_, hstep, rfl, rfl, rfl, rfl, rfl, rfl, rfl,
    fun off => (platformReset_specified_iff _ _).trans (locate_alwaysSpecified_iff off), rfl, rfl⟩

end Sys2Proof.Proofs
